-- ==== Sys2Proof/Word.lean ====
section
/-! DEFINITION. The unsigned words of the block (00_scope.md R10): `uN` of the spec is `BitVec N`. -/

namespace Sys2Proof

/-- A wire byte, a registry key or an unmasked pin operand: the spec's `u8` (R10). -/
abbrev Byte := BitVec 8

/-- A payload byte with bit 7 clear: the spec's `u7` (R10, R21). -/
abbrev Data7 := BitVec 7

/-- A channel, pin or port: the spec's `u4` (R10, R21). -/
abbrev Nibble := BitVec 4

/-- A reassembled or encoded value: the spec's `u14` (R10, R69). -/
abbrev Value14 := BitVec 14

end Sys2Proof
end

