-- ==== Sys2Proof/Config.lean ====
section
/-! DEFINITION. The parameters of a block instance (00_scope.md R8, R9, 10_state.md R28). -/

namespace Sys2Proof

/-! ### The type of a handler reference (R8, R126) -/

/-- Which codes name a handler, beside the code 0. D12 leaves the type `HandlerId` open, so this constant has no
body: nothing can be proved of which handlers there are, nor of how many (log entry 4). -/
opaque Config.openHandlerCode : Nat → Bool

/-- Whether a code names a handler. The type has one handler at least, whose code is 0 (log entry 4). -/
def isHandlerCode (code : Nat) : Bool := code == 0 || Config.openHandlerCode code

/-- A handler reference: the spec's type parameter `HandlerId` (R8, R126, I9). It is open, because its codes are.
`NONE` is `none : Option HandlerId`, which is not in it. -/
structure HandlerId where
  /-- The code that stands for the handler at the host operation port (log entry 4). -/
  code : Nat
  /-- The code is one of the type's. -/
  isCode : isHandlerCode code = true
  deriving DecidableEq, Repr

/-- The handler of code 0. -/
def HandlerId.first : HandlerId := { code := 0, isCode := rfl }

/-! ### The command constants (R8, R9) -/

/-- The five constants that an instance assigns (R8, R9; 93_implementation_defined.md I3). Encoder and decoder
read the one assignment of the instance (R9). -/
structure Commands where
  /-- `DIGITAL_MESSAGE`. -/
  digitalMessage : Byte
  /-- `SET_PIN_MODE`. -/
  setPinMode : Byte
  /-- `REPORT_ANALOG`. -/
  reportAnalog : Byte
  /-- `REPORT_DIGITAL`. -/
  reportDigital : Byte
  /-- `REPORT_VERSION`. -/
  reportVersion : Byte
  deriving DecidableEq, Repr

/-! ### The parameters -/

/-- The parameters that 00_scope.md R8 leaves OPEN and those I3 treats as one. An instance keeps them for its
whole life (R28). They travel with the state as plain data, so that a claim about every state is a claim about
every assignment of them (log entry 5). -/
structure Config where
  /-- The command constants (R8, R9). -/
  cmds : Commands
  /-- `SYSEX_CAP`: capacity of the sysex buffer in bytes, at least 1 (R8, D3). -/
  sysexCap : Nat
  /-- `VER_MARKER`, 8 bits (R8, D13). -/
  verMarker : Byte
  /-- `VER_MINOR`, 0..127 (R8, D13). -/
  verMinor : Data7
  /-- `VER_MAJOR`, 0..127 (R8, D13). -/
  verMajor : Data7
  /-- `ANNOUNCE_ON_RESET` (R8, D15). -/
  announceOnReset : Bool
  deriving DecidableEq, Repr

/-- `VER_MARKER` of the instance that `State.reset` describes. R8 gives no value, so none can be proved (log entry 6). -/
opaque Config.openVerMarker : Byte

/-- `VER_MINOR` of the instance that `State.reset` describes. R8 gives no value (log entry 6). -/
opaque Config.openVerMinor : Data7

/-- `VER_MAJOR` of the instance that `State.reset` describes. R8 gives no value (log entry 6). -/
opaque Config.openVerMajor : Data7

/-- The announcement `[VER_MARKER, VER_MINOR, VER_MAJOR]` (R64, R96, R133, R171). -/
def Config.versionBytes (c : Config) : List Byte :=
  [c.verMarker, c.verMinor.setWidth 8, c.verMajor.setWidth 8]

end Sys2Proof
end

