-- ==== Sys2Proof/Syntax.lean ====
section
/-! DEFINITION. The 32 instructions of spec/opcode_table.json, and the raw words the ports carry. -/

namespace Sys2Proof

/-- One constructor per row of spec/opcode_table.json, in the table's order.

A wire-byte constructor stands for the FEED of the byte that the instance's command constants give it, written
out here for the constants of R8 (log entries 2 and 7). A host-operation constructor stands for the operation of
30_encoding.md R70. The widths of the operands are those of R71. -/
inductive Instr where
  /-- `0ddddddd` (R60, R82). -/
  | data (d : Data7)
  /-- `1001cccc` (R66, R90). -/
  | analogMessage (c : Nibble)
  /-- `1010cccc` (R66, R91). -/
  | digitalMessage (c : Nibble)
  /-- `1100cccc` (R66, R92). -/
  | setPinMode (c : Nibble)
  /-- `1101cccc` (R66, R93). -/
  | reportAnalog (c : Nibble)
  /-- `1110cccc` (R66, R94). -/
  | reportDigital (c : Nibble)
  /-- `1000cccc` (R73, R101). -/
  | unrecognizedClass80 (c : Nibble)
  /-- `1011cccc` (R73, R101). -/
  | unrecognizedClassB0 (c : Nibble)
  /-- 0xF0 (R67, R97). -/
  | startSysex
  /-- 0xF7 (R67, R99, R100). -/
  | endSysex
  /-- 0xF9 (R67, R96). -/
  | reportVersion
  /-- 0xFF (R67, R95). -/
  | systemReset
  /-- 0xF1 (R73, R101). -/
  | unrecognizedF1
  /-- 0xF2 (R73, R101). -/
  | unrecognizedF2
  /-- 0xF3 (R73, R101). -/
  | unrecognizedF3
  /-- 0xF4 (R73, R101). -/
  | unrecognizedF4
  /-- 0xF5 (R73, R101). -/
  | unrecognizedF5
  /-- 0xF6 (R73, R101). -/
  | unrecognizedF6
  /-- 0xF8 (R73, R101). -/
  | unrecognizedF8
  /-- 0xFA (R73, R101). -/
  | unrecognizedFA
  /-- 0xFB (R73, R101). -/
  | unrecognizedFB
  /-- 0xFC (R73, R101). -/
  | unrecognizedFC
  /-- 0xFD (R73, R101). -/
  | unrecognizedFD
  /-- 0xFE (R73, R101). -/
  | unrecognizedFE
  /-- HOP 0 (R70, R80). -/
  | feed (b : Byte)
  /-- HOP 1 (R70, R120). -/
  | attach (key : Byte) (h : HandlerId)
  /-- HOP 2 (R70, R121). -/
  | detach (key : Byte)
  /-- HOP 3 (R70, R130). -/
  | encAnalog (pin : Byte) (value : Value14)
  /-- HOP 4 (R70, R131). -/
  | encDigital (port : Byte) (value : Value14)
  /-- HOP 5 (R70, R132). -/
  | encExtended (cmd : Byte) (payload : List Byte)
  /-- HOP 6 (R70, R133). -/
  | encVersion
  /-- HOP 7 (R70, R140). -/
  | readDiag
  deriving DecidableEq, Repr

/-- What a port carries, not yet checked. `op` is the spec's own encoding of an operation, a pair
`(HOP, operands)` (R75), with the payload of ENC_EXTENDED as the operands after `cmd`. `wire` is a byte
of the input byte port (R4, R60), which the block takes by a FEED. Operands are plain numbers, so that
the operands R152 refuses can be written down. -/
inductive PortWord where
  | wire (n : Nat)
  | op (hop : Nat) (operands : List Nat)
  deriving DecidableEq, Repr

/-- Why the port refuses a word (60_exceptions.md R152). Every one of them is safe: no step is taken. -/
inductive Reject where
  /-- A FEED byte, key, pin, port, `cmd` or payload byte outside 0..255 (R152). -/
  | operandByte (n : Nat)
  /-- An ATTACH operand that is no code of a `HandlerId` (R70, R152). -/
  | operandHandler (n : Nat)
  /-- A byte that no row of the wire table matches. In a conforming assignment no byte is one (R72). -/
  | unassignedByte (n : Nat)
  /-- A HOP above 7: the operation does not exist (R70, 93_implementation_defined.md I7). -/
  | noSuchOperation (hop : Nat)
  /-- Too few or too many operands for the HOP (R70, log entry 12). -/
  | operandCount (hop : Nat)
  /-- ENC_ANALOG or ENC_DIGITAL with a value above 16383 (R134, R152). -/
  | valueTooWide (v : Nat)
  deriving DecidableEq, Repr

end Sys2Proof
end

