-- ==== Sys2Proof/WellFormed.lean ====
section
/-! DEFINITION. Which words the ports admit (30_encoding.md R70, R71; 60_exceptions.md R152).
An `Instr` needs no further check: the widths of its fields are the domains of R71. -/

namespace Sys2Proof

/-- A number that fits a byte operand (R152: "a `key` outside 0..255 or a FEED byte outside 0..255"). -/
def isByte (n : Nat) : Bool := n < 256

/-- A number that fits the `u14` operand `value` (R134). -/
def isValue14 (n : Nat) : Bool := n < 16384

/-- The words R70, R71 and R152 admit. -/
def PortWord.wellFormed : PortWord → Bool
  | .wire n => isByte n
  | .op hop operands =>
    match hop, operands with
    | 0, [b] => isByte b
    | 1, [key, h] => isByte key && isHandlerCode h
    | 2, [key] => isByte key
    | 3, [pin, value] => isByte pin && isValue14 value
    | 4, [port, value] => isByte port && isValue14 value
    | 5, cmd :: payload => isByte cmd && payload.all isByte
    | 6, [] => true
    | 7, [] => true
    | _, _ => false

end Sys2Proof
end

