-- ==== Sys2Proof/Decode.lean ====
section
/-! DEFINITION. The encoding tables of 30_encoding.md: the command constants, the wire table, the decoder of
port words, the encoder, and the listing notation of R75. -/

namespace Sys2Proof

/-! ### The command constants, and the defaults of the parameters (00_scope.md R8, R9, log entry 7) -/

/-- `ANALOG_MESSAGE`, fixed by R9. -/
def Cmd.analogMessage : Byte := 0x90
/-- `START_SYSEX`, fixed by R9. -/
def Cmd.startSysex : Byte := 0xF0
/-- `END_SYSEX`, fixed by R9. -/
def Cmd.endSysex : Byte := 0xF7
/-- `SYSTEM_RESET`, fixed by R9. -/
def Cmd.systemReset : Byte := 0xFF

/-- R8's values, the default of I3 (D2). -/
def Commands.default : Commands where
  digitalMessage := 0xA0
  setPinMode := 0xC0
  reportAnalog := 0xD0
  reportDigital := 0xE0
  reportVersion := 0xF9

/-- The fixed-payload classes with 2 data bytes (R66). -/
def Commands.twoByteClasses (c : Commands) : List Byte := [Cmd.analogMessage, c.digitalMessage, c.setPinMode]

/-- The fixed-payload classes with 1 data byte (R66). -/
def Commands.oneByteClasses (c : Commands) : List Byte := [c.reportAnalog, c.reportDigital]

/-- The five fixed-payload classes (R66), which are also the five keys dispatch reads (R25, R123). -/
def Commands.fixedClasses (c : Commands) : List Byte := c.twoByteClasses ++ c.oneByteClasses

/-- The four system commands (R67). -/
def Commands.systemCommands (c : Commands) : List Byte :=
  [Cmd.startSysex, Cmd.endSysex, c.reportVersion, Cmd.systemReset]

/-- The bytes a channel command constant may be: the multiples of 0x10 in 0x80..0xE0 (R9). -/
def channelConstants : List Byte := [0x80, 0x90, 0xA0, 0xB0, 0xC0, 0xD0, 0xE0]

/-- The bytes a system command constant may be: 0xF0..0xFF (R9). -/
def systemConstants : List Byte :=
  [0xF0, 0xF1, 0xF2, 0xF3, 0xF4, 0xF5, 0xF6, 0xF7, 0xF8, 0xF9, 0xFA, 0xFB, 0xFC, 0xFD, 0xFE, 0xFF]

/-- The assignments that R9 calls conforming. -/
def Commands.Conforming (c : Commands) : Prop :=
  (∀ k ∈ c.fixedClasses, k ∈ channelConstants) ∧ c.fixedClasses.Nodup ∧
  (∀ k ∈ c.systemCommands, k ∈ systemConstants) ∧ c.systemCommands.Nodup

/-- The classes that channel commands use in R8's assignment and not in this one, in rising order. -/
def Commands.freedClasses (c : Commands) : List Byte :=
  ([0xA0, 0xC0, 0xD0, 0xE0] : List Byte).filter fun k => !c.fixedClasses.contains k

/-- The class of the row UNRECOGNIZED_CLASS_80 (R73): 0x80, or a freed class where a command uses 0x80
(log entry 7). -/
def Commands.class80 (c : Commands) : Byte :=
  if c.fixedClasses.contains 0x80 then c.freedClasses.headD 0 else 0x80

/-- The class of the row UNRECOGNIZED_CLASS_B0 (R73): 0xB0, or a freed class where a command uses 0xB0
(log entry 7). -/
def Commands.classB0 (c : Commands) : Byte :=
  if c.fixedClasses.contains 0xB0 then c.freedClasses.getLastD 0 else 0xB0

/-- The byte of the row of an unassigned system byte of the table (R73): its own, or the REPORT_VERSION of R8 where
this assignment's REPORT_VERSION is its own (log entry 7). -/
def Commands.systemRow (c : Commands) (own : Byte) : Byte :=
  if own = c.reportVersion then Commands.default.reportVersion else own

/-- The configurations that R8 and R9 admit. -/
def Config.legal (c : Config) : Prop := 1 ≤ c.sysexCap ∧ c.cmds.Conforming

/-- R8's values and defaults: the command constants of D2, `SYSEX_CAP` 32 and `ANNOUNCE_ON_RESET` true. -/
def Config.default : Config where
  cmds := Commands.default
  sysexCap := 32
  verMarker := Config.openVerMarker
  verMinor := Config.openVerMinor
  verMajor := Config.openVerMajor
  announceOnReset := true

/-! ### Fields of a command byte (R61, R68) -/

/-- The class of a channel command byte: `b & 0xF0` (R61, R68). -/
def classOf (b : Byte) : Byte := b &&& 0xF0

/-- The channel of a channel command byte: `b & 0x0F` (R61, R68). -/
def channelOf (b : Byte) : Nibble := b.setWidth 4

/-- The payload of a data byte: `b[6:0]` (R63). -/
def dataOf (b : Byte) : Data7 := b.setWidth 7

/-- A channel command byte from its class and channel: `class | ch` (R64, R69). -/
def channelByte (cls : Byte) (ch : Nibble) : Byte := cls ||| ch.setWidth 8

/-! ### The wire table (R60, R61, R62, R72) -/

/-- One wire row of spec/opcode_table.json. A byte `b` is of the row when `b & mask = pattern`. -/
structure WireRow where
  mask : Byte
  pattern : Byte
  build : Byte → Instr

/-- Whether the byte is of the row. -/
def WireRow.matches (r : WireRow) (b : Byte) : Bool := b &&& r.mask == r.pattern

/-- The row DATA (R60). -/
def dataRow : WireRow := ⟨0x80, 0x00, fun b => .data (dataOf b)⟩

/-- The rows of the channel command bytes (R61, R66, R73). -/
def channelRows (c : Commands) : List WireRow :=
  [ ⟨0xF0, Cmd.analogMessage, fun b => .analogMessage (channelOf b)⟩,
    ⟨0xF0, c.digitalMessage, fun b => .digitalMessage (channelOf b)⟩,
    ⟨0xF0, c.setPinMode, fun b => .setPinMode (channelOf b)⟩,
    ⟨0xF0, c.reportAnalog, fun b => .reportAnalog (channelOf b)⟩,
    ⟨0xF0, c.reportDigital, fun b => .reportDigital (channelOf b)⟩,
    ⟨0xF0, c.class80, fun b => .unrecognizedClass80 (channelOf b)⟩,
    ⟨0xF0, c.classB0, fun b => .unrecognizedClassB0 (channelOf b)⟩ ]

/-- The rows of the system command bytes (R62, R67, R73). -/
def systemRows (c : Commands) : List WireRow :=
  [ ⟨0xFF, Cmd.startSysex, fun _ => .startSysex⟩,
    ⟨0xFF, Cmd.endSysex, fun _ => .endSysex⟩,
    ⟨0xFF, c.reportVersion, fun _ => .reportVersion⟩,
    ⟨0xFF, Cmd.systemReset, fun _ => .systemReset⟩,
    ⟨0xFF, c.systemRow 0xF1, fun _ => .unrecognizedF1⟩,
    ⟨0xFF, c.systemRow 0xF2, fun _ => .unrecognizedF2⟩,
    ⟨0xFF, c.systemRow 0xF3, fun _ => .unrecognizedF3⟩,
    ⟨0xFF, c.systemRow 0xF4, fun _ => .unrecognizedF4⟩,
    ⟨0xFF, c.systemRow 0xF5, fun _ => .unrecognizedF5⟩,
    ⟨0xFF, c.systemRow 0xF6, fun _ => .unrecognizedF6⟩,
    ⟨0xFF, c.systemRow 0xF8, fun _ => .unrecognizedF8⟩,
    ⟨0xFF, c.systemRow 0xFA, fun _ => .unrecognizedFA⟩,
    ⟨0xFF, c.systemRow 0xFB, fun _ => .unrecognizedFB⟩,
    ⟨0xFF, c.systemRow 0xFC, fun _ => .unrecognizedFC⟩,
    ⟨0xFF, c.systemRow 0xFD, fun _ => .unrecognizedFD⟩,
    ⟨0xFF, c.systemRow 0xFE, fun _ => .unrecognizedFE⟩ ]

/-- The 24 wire rows of spec/opcode_table.json, in its order, for an assignment of the command constants. For the
constants of R8 the patterns are those of the table. For another assignment the rows of the unassigned classes
and bytes keep theirs, unless the assignment uses it (log entry 7). -/
def wireTable (c : Commands) : List WireRow := dataRow :: (channelRows c ++ systemRows c)

/-- The instruction of a wire byte: the row of the table that it matches (R72). -/
def decodeWire (c : Commands) (b : Byte) : Except Reject Instr :=
  match (wireTable c).find? (fun r => r.matches b) with
  | some r => .ok (r.build b)
  | none => .error (.unassignedByte b.toNat)

/-! ### Host operations (R70, R71, R152) -/

/-- A byte operand, refused outside 0..255 (R152). -/
def decodeByte (n : Nat) : Except Reject Byte :=
  if isByte n then .ok (BitVec.ofNat 8 n) else .error (.operandByte n)

/-- The `value` operand, refused above 16383 (R134, R152). -/
def decodeValue (n : Nat) : Except Reject Value14 :=
  if isValue14 n then .ok (BitVec.ofNat 14 n) else .error (.valueTooWide n)

/-- The handler operand of ATTACH, refused where no handler has the code (R70, R152, log entry 4). -/
def decodeHandler (n : Nat) : Except Reject HandlerId :=
  if h : isHandlerCode n = true then .ok { code := n, isCode := h } else .error (.operandHandler n)

/-- The payload operand of ENC_EXTENDED: any number of bytes (R71, R132). -/
def decodeBytes : List Nat → Except Reject (List Byte)
  | [] => .ok []
  | n :: rest =>
    match decodeByte n with
    | .error r => .error r
    | .ok b => (decodeBytes rest).map (b :: ·)

/-- The operation of a `(HOP, operands)` pair (R70). -/
def decodeOp (hop : Nat) (operands : List Nat) : Except Reject Instr :=
  match hop, operands with
  | 0, [b] => (decodeByte b).map .feed
  | 1, [key, h] => (decodeByte key).bind fun k => (decodeHandler h).map (.attach k)
  | 2, [key] => (decodeByte key).map .detach
  | 3, [pin, value] => (decodeByte pin).bind fun p => (decodeValue value).map (.encAnalog p)
  | 4, [port, value] => (decodeByte port).bind fun p => (decodeValue value).map (.encDigital p)
  | 5, cmd :: payload => (decodeByte cmd).bind fun c => (decodeBytes payload).map (.encExtended c)
  | 6, [] => .ok .encVersion
  | 7, [] => .ok .readDiag
  | hop, _ => if hop < 8 then .error (.operandCount hop) else .error (.noSuchOperation hop)

/-- The instruction of a port word in an instance with the command constants `c`, or the name of the refusal.
Total. -/
def decode (c : Commands) : PortWord → Except Reject Instr
  | .wire n => (decodeByte n).bind (decodeWire c)
  | .op hop operands => decodeOp hop operands

/-! ### The encoder -/

/-- The number of a wire byte, as `PortWord.wire` carries it. -/
def wireWord (b : Byte) : PortWord := .wire b.toNat

/-- The port word of an instruction in an instance with the command constants `c`: the byte of R60 to R62 and R66
to R67, or the pair of R70. -/
def encode (c : Commands) : Instr → PortWord
  | .data d => wireWord (d.setWidth 8)
  | .analogMessage ch => wireWord (channelByte Cmd.analogMessage ch)
  | .digitalMessage ch => wireWord (channelByte c.digitalMessage ch)
  | .setPinMode ch => wireWord (channelByte c.setPinMode ch)
  | .reportAnalog ch => wireWord (channelByte c.reportAnalog ch)
  | .reportDigital ch => wireWord (channelByte c.reportDigital ch)
  | .unrecognizedClass80 ch => wireWord (channelByte c.class80 ch)
  | .unrecognizedClassB0 ch => wireWord (channelByte c.classB0 ch)
  | .startSysex => wireWord Cmd.startSysex
  | .endSysex => wireWord Cmd.endSysex
  | .reportVersion => wireWord c.reportVersion
  | .systemReset => wireWord Cmd.systemReset
  | .unrecognizedF1 => wireWord (c.systemRow 0xF1)
  | .unrecognizedF2 => wireWord (c.systemRow 0xF2)
  | .unrecognizedF3 => wireWord (c.systemRow 0xF3)
  | .unrecognizedF4 => wireWord (c.systemRow 0xF4)
  | .unrecognizedF5 => wireWord (c.systemRow 0xF5)
  | .unrecognizedF6 => wireWord (c.systemRow 0xF6)
  | .unrecognizedF8 => wireWord (c.systemRow 0xF8)
  | .unrecognizedFA => wireWord (c.systemRow 0xFA)
  | .unrecognizedFB => wireWord (c.systemRow 0xFB)
  | .unrecognizedFC => wireWord (c.systemRow 0xFC)
  | .unrecognizedFD => wireWord (c.systemRow 0xFD)
  | .unrecognizedFE => wireWord (c.systemRow 0xFE)
  | .feed b => .op 0 [b.toNat]
  | .attach key h => .op 1 [key.toNat, h.code]
  | .detach key => .op 2 [key.toNat]
  | .encAnalog pin value => .op 3 [pin.toNat, value.toNat]
  | .encDigital port value => .op 4 [port.toNat, value.toNat]
  | .encExtended cmd payload => .op 5 (cmd.toNat :: payload.map BitVec.toNat)
  | .encVersion => .op 6 []
  | .readDiag => .op 7 []

/-! ### Words as spec/opcode_table.json numbers them (log entry 3) -/

/-- The operands of zeros that a bare HOP of the table is given. ENC_EXTENDED gets an empty payload. -/
def zeroOperands : Nat → List Nat
  | 0 => [0]
  | 1 => [0, 0]
  | 2 => [0]
  | 3 => [0, 0]
  | 4 => [0, 0]
  | 5 => [0]
  | _ => []

/-- The port word of a table word. Both kinds of row fit one byte, and the table's numbers 0..7 are both
HOP codes and data bytes: 0..7 is read as a HOP, every other number as a wire byte (log entry 3). -/
def tableWord (_nbits w : Nat) : PortWord :=
  if w < 8 then .op w (zeroOperands w) else .wire w

/-- The instruction the decoder reads from a table word, none where it refuses. The table writes its words with the
constants of R8. -/
def decodeTableWord (nbits w : Nat) : Option Instr :=
  match decode Commands.default (tableWord nbits w) with
  | .ok i => some i
  | .error _ => none

/-! ### Message shapes and listings (R64, R75) -/

/-- A wire message in the listing notation of R75. -/
inductive Listing where
  | analog (ch : Nibble) (v : Value14)
  | digital (port : Nibble) (v : Value14)
  | setPinMode (pin : Nibble) (mode : Value14)
  | reportAnalog (ch : Nibble) (d : Data7)
  | reportDigital (ch : Nibble) (d : Data7)
  | reset
  | reportVersion
  | sysex (cmd : Data7) (data : List Data7)
  | byte (b : Byte)
  deriving DecidableEq, Repr

/-- `v & 0x7F` as a byte: the first data byte of a 14-bit value (R43, R69). -/
def lowByte (v : Value14) : Byte := (v &&& 0x7F).setWidth 8

/-- `v >> 7` as a byte: the second data byte of a 14-bit value (R43, R69). -/
def highByte (v : Value14) : Byte := (v >>> 7).setWidth 8

/-- A channel message with a 2-byte payload: `[class | ch, lo7, hi7]` (R64). -/
def channelMessage (cls : Byte) (ch : Nibble) (v : Value14) : List Byte :=
  [channelByte cls ch, lowByte v, highByte v]

/-- An extended message: `[START_SYSEX, cmd] ++ payload ++ [END_SYSEX]` (R64, R132). -/
def sysexMessage (cmd : Byte) (payload : List Byte) : List Byte :=
  [Cmd.startSysex, cmd] ++ payload ++ [Cmd.endSysex]

/-- The bytes a listing expands to, with the command constants `c` (R75). -/
def Listing.bytes (c : Commands) : Listing → List Byte
  | .analog ch v => channelMessage Cmd.analogMessage ch v
  | .digital port v => channelMessage c.digitalMessage port v
  | .setPinMode pin mode => channelMessage c.setPinMode pin mode
  | .reportAnalog ch d => [channelByte c.reportAnalog ch, d.setWidth 8]
  | .reportDigital ch d => [channelByte c.reportDigital ch, d.setWidth 8]
  | .reset => [Cmd.systemReset]
  | .reportVersion => [c.reportVersion]
  | .sysex cmd data => sysexMessage (cmd.setWidth 8) (data.map (·.setWidth 8))
  | .byte b => [b]

/-- The pseudo-operation `FEEDS`: one FEED per byte (R75). -/
def feeds (bs : List Byte) : List Instr := bs.map Instr.feed

end Sys2Proof
end

