-- ==== Sys2Proof/Machine/State.lean ====
section
/-! DEFINITION. The architectural state (10_state.md), the outputs of a step, and the state right after
power-on reset (10_state.md R36, 70_reset_and_hazards.md R170, R171). Plain data throughout. -/

namespace Sys2Proof.Machine

/-- The parser registers `P` (10_state.md R21). -/
structure Parser where
  /-- `P.pending`, 2 bits: data bytes still awaited. The value 3 never occurs (R21, R22). -/
  pending : BitVec 2
  /-- `P.active`: command class of the message in progress, or none. -/
  active : Option Byte
  /-- `P.channel`: latched from the last recognized channel command byte. -/
  channel : Nibble
  /-- `P.buf[0]`. -/
  buf0 : Data7
  /-- `P.buf[1]`. -/
  buf1 : Data7
  deriving DecidableEq, Repr

/-- The sysex registers `S` (10_state.md R23). -/
structure Sysex where
  /-- `S.count`: bytes stored so far, 0..SYSEX_CAP. -/
  count : Nat
  /-- `S.ovf`: a data byte arrived with `S.count = SYSEX_CAP` (R29: the block's only Boolean register). -/
  ovf : Bool
  /-- `S.buf[0..SYSEX_CAP-1]`: as many entries as the instance's SYSEX_CAP (log entry 11). -/
  buf : List Data7
  deriving DecidableEq, Repr

/-- The event output of a step (10_state.md R31). -/
inductive Event where
  | noEvent
  /-- Run handler `h` with the arguments `(a, v)`. -/
  | call (h : HandlerId) (key : Byte) (a : Nibble) (v : Value14)
  /-- An extended command and its data. -/
  | extended (cmd : Data7) (data : List Data7)
  deriving DecidableEq, Repr

/-- The drop causes (60_exceptions.md R151). -/
inductive DropCause where
  | unrecognized
  | aborted
  | sysexOverflow
  | emptySysex
  deriving DecidableEq, Repr

/-- What one step puts out (10_state.md R31 to R33; 20_memory.md R47; log entry 8). -/
structure Outputs where
  /-- The event output (R31). -/
  event : Event
  /-- The TX bytes, in order (R32). -/
  tx : List Byte
  /-- The drop causes, in order (R33). -/
  diag : List DropCause
  /-- The value READ_DIAG returns, none for every other step (R47, R140). -/
  result : Option (BitVec 16)
  deriving DecidableEq, Repr

/-- The outputs a step starts from: `NoEvent`, TX `[]`, diag `[]` (40_frame_decoder.md R80). -/
def Outputs.nothing : Outputs := { event := .noEvent, tx := [], diag := [], result := none }

/-- What the host has put at the block: a power-on reset, which is a separate input and no host operation
(10_state.md R30), or a word at a port (log entries 1 and 9). -/
inductive HostInput where
  | powerOn
  | word (w : PortWord)
  deriving DecidableEq, Repr

/-- One block instance (60_exceptions.md R162). -/
structure State where
  /-- The instance's parameters, which no operation writes (R28, log entry 5). -/
  cfg : Config
  /-- The parser registers (R21). -/
  P : Parser
  /-- The sysex registers (R23). -/
  S : Sysex
  /-- The registry: 256 slots, each `NONE` or one handler (R25). -/
  T : Vector (Option HandlerId) 256
  /-- The drop counter (R27). -/
  DC : BitVec 16
  /-- The outputs of the step that led here (R31 to R33). -/
  out : Outputs
  /-- The model's own field: inputs the host has put at the block, first one next (log entry 1). -/
  inbox : List HostInput
  deriving DecidableEq, Repr

/-- The block raises no exception, trap or fault that stops a step (60_exceptions.md R150): there is no
fault, and nothing raises one. Safe, since no step of the model can end in one. -/
inductive Fault
  deriving DecidableEq, Repr

/-- Why no step is taken (60_exceptions.md R152). -/
inductive Refusal where
  /-- Raised only by an arm of `exec` whose instruction has no meaning yet. Safe. No arm does so. -/
  | notModelled (mnemonic : String)
  /-- Raised by `step` when the host has put nothing at the block: a step takes one host operation
  (10_state.md R30), and there is none. Safe. -/
  | noOperation
  /-- Raised by `step` when the next port word is one R152 refuses. Safe: the model claims nothing
  about a run that holds one (R152). -/
  | rejected (why : Reject)
  deriving DecidableEq, Repr

/-- `P_init` (10_state.md R36). -/
def Parser.init : Parser := { pending := 0, active := none, channel := 0, buf0 := 0, buf1 := 0 }

/-- `S_init` of an instance (10_state.md R36): every entry of the buffer 0. -/
def Sysex.init (c : Config) : Sysex := { count := 0, ovf := false, buf := List.replicate c.sysexCap 0 }

/-- The state right after power-on reset of an instance with parameters `c` (R36, R170, R171). -/
def State.resetWith (c : Config) : State where
  cfg := c
  P := Parser.init
  S := Sysex.init c
  T := Vector.replicate 256 none
  DC := 0
  out := { Outputs.nothing with tx := if c.announceOnReset then c.versionBytes else [] }
  inbox := []

/-- The machine right after power-on reset, with the spec's default parameters (R8, R36). -/
def State.reset : State := State.resetWith Config.default

end Sys2Proof.Machine
end

