-- ==== Sys2Proof/Machine/Operands.lean ====
section
/-! DEFINITION. Operand assembly (30_encoding.md R68, R69) and the codes of the drop causes (R151). -/

namespace Sys2Proof.Machine

/-- The command class of a byte: `b & 0xF0` below 0xF0, the byte itself from 0xF0 up (R68, R89). -/
def commandClass (b : Byte) : Byte := if b < 0xF0 then classOf b else b

/-- The value of a 2-byte payload, first data byte least significant:
`zext_14(d1) | (zext_14(d2) << 7)` (R69, R86). -/
def joinValue (d1 d2 : Data7) : Value14 := d1.setWidth 14 ||| (d2.setWidth 14 <<< 7)

/-- The value of a 1-byte payload: `zext_14(d)` (R69, R87). -/
def singleValue (d : Data7) : Value14 := d.setWidth 14

/-- The low nibble of a pin or port operand: `pin & 0x0F` (R69, R71, R130). -/
def nibbleOf (pin : Byte) : Nibble := (pin &&& 0x0F).setWidth 4

/-- The code of a drop cause (R151). Code 0 is never emitted. -/
def causeCode : DropCause → Nat
  | .unrecognized => 1
  | .aborted => 2
  | .sysexOverflow => 3
  | .emptySysex => 4

end Sys2Proof.Machine
end

