-- ==== Sys2Proof/Machine/Flags.lean ====
section
/-! DEFINITION. What is derived from the registers and not stored: the decoder mode (10_state.md R24). The
block has no condition codes; its one Boolean register is `S.ovf` (R29), whose setting is here. -/

namespace Sys2Proof.Machine

/-- The decoder modes (10_state.md R24). -/
inductive Mode where
  | idle
  | fixed
  | sysex
  deriving DecidableEq, Repr

/-- `mode(P)` (10_state.md R24). -/
def mode (p : Parser) : Mode :=
  match p.active with
  | none => .idle
  | some k => if k = Cmd.startSysex then .sysex else .fixed

/-- Whether a sysex data byte finds the buffer full, and so sets `S.ovf` (R23, R98). -/
def sysexFull (cap : Nat) (x : Sysex) : Bool := !(x.count < cap)

end Sys2Proof.Machine
end

