-- ==== Sys2Proof/Machine/Ops.lean ====
section
/-! DEFINITION. The named operations on the state, one per primitive or sub-step of the spec's pseudocode
(00_scope.md R11, 40_frame_decoder.md R80 to R99). The block has no exception to take and none to return
from (R150, R156): its stand-ins are `drop` for `raise` (R11) and `dispatch` for trap entry (R155). -/

namespace Sys2Proof.Machine

/-! ### Outputs -/

/-- The outputs of a step start as `NoEvent`, TX `[]`, diag `[]` (R80). -/
def beginStep (s : State) : State := { s with out := Outputs.nothing }

/-- `emit_event(e)` (R11). -/
def emitEvent (e : Event) (s : State) : State := { s with out := { s.out with event := e } }

/-- `emit_tx(seq)` appends to the step's TX output (R11). -/
def emitTx (bytes : List Byte) (s : State) : State :=
  { s with out := { s.out with tx := s.out.tx ++ bytes } }

/-- The value an operation returns to the host (R140). -/
def emitResult (v : BitVec 16) (s : State) : State := { s with out := { s.out with result := some v } }

/-- `drop(c)`: appends the cause and adds 1 to `DC` modulo 2^16 (R11, R141). -/
def drop (c : DropCause) (s : State) : State :=
  { s with DC := s.DC + 1, out := { s.out with diag := s.out.diag ++ [c] } }

/-- The version announcement as TX output (R96, R133). -/
def announce (s : State) : State := emitTx s.cfg.versionBytes s

/-! ### The registry -/

/-- `T[key]` (R25). -/
def slot (s : State) (key : Byte) : Option HandlerId := s.T[key.toNat]'key.isLt

/-- `T[key] <- h` (R120, R121). -/
def setSlot (key : Byte) (h : Option HandlerId) (s : State) : State :=
  { s with T := s.T.set key.toNat h key.isLt }

/-! ### Fixed-payload messages -/

/-- `start(cls, ch, n)` (R89). -/
def start (cls : Byte) (ch : Nibble) (n : BitVec 2) (s : State) : State :=
  { s with P := { s.P with pending := n, active := some cls, channel := ch } }

/-- `P.buf[i] <- d`. There are two entries (R21): an index of 2 or 3, which no state within R22 gives,
stores nothing (log entry 10). -/
def storeBuf (i : BitVec 2) (d : Data7) (p : Parser) : Parser :=
  match i.toNat with
  | 0 => { p with buf0 := d }
  | 1 => { p with buf1 := d }
  | _ => p

/-- `P.pending <- P.pending - 1 ; P.buf[P.pending] <- d` (R82, R83). -/
def storeFixed (d : Data7) (s : State) : State :=
  { s with P := storeBuf (s.P.pending - 1) d { s.P with pending := s.P.pending - 1 } }

/-- The value a completed message of class `k` carries, with the command constants `c` (R85 to R87). -/
def payloadValue (c : Commands) (k : Byte) (p : Parser) : Value14 :=
  if k ∈ c.twoByteClasses then joinValue p.buf1 p.buf0 else singleValue p.buf0

/-- Dispatch entry (R155): reads the registry now (R54) and emits `Call(h, k, P.channel, v)` if the slot
holds a handler. A missing handler is no drop (R142). -/
def dispatch (k : Byte) (v : Value14) (s : State) : State :=
  match slot s k with
  | some h => emitEvent (.call h k s.P.channel v) s
  | none => s

/-- `P.active <- none` (R85). -/
def clearActive (s : State) : State := { s with P := { s.P with active := none } }

/-- `complete_fixed()` (R85). Only FIXED mode reaches it, where `P.active` is some class. -/
def completeFixed (s : State) : State :=
  match s.P.active with
  | some k => clearActive (dispatch k (payloadValue s.cfg.cmds k s.P) s)
  | none => s

/-- A data byte in FIXED mode: store, then complete when none is awaited any more (R82 to R84). -/
def fixedData (d : Data7) (s : State) : State :=
  if (storeFixed d s).P.pending = 0 then completeFixed (storeFixed d s) else storeFixed d s

/-! ### Extended messages -/

/-- `START_SYSEX`: `P.active <- some START_SYSEX ; S.count <- 0 ; S.ovf <- false` (R97). -/
def beginSysex (s : State) : State :=
  { s with P := { s.P with active := some Cmd.startSysex }, S := { s.S with count := 0, ovf := false } }

/-- `sysex_data(b)` (R98). -/
def sysexData (d : Data7) (s : State) : State :=
  if sysexFull s.cfg.sysexCap s.S then
    { s with S := { s.S with ovf := true } }
  else
    { s with S := { s.S with buf := s.S.buf.set s.S.count d, count := s.S.count + 1 } }

/-- The event of a complete extended message:
`Extended(S.buf[0], [S.buf[1], ..., S.buf[S.count - 1]])` (R99). -/
def extendedEvent (x : Sysex) : Event :=
  .extended (x.buf.getD 0 0) ((x.buf.take x.count).drop 1)

/-- The message in progress is over: `P.active <- none ; S.count <- 0 ; S.ovf <- false` (R99). -/
def endSysexMessage (s : State) : State :=
  { s with P := { s.P with active := none }, S := { s.S with count := 0, ovf := false } }

/-- `complete_sysex()` (R99). -/
def completeSysex (s : State) : State :=
  endSysexMessage <|
    if s.S.ovf then drop .sysexOverflow s
    else if s.S.count = 0 then drop .emptySysex s
    else emitEvent (extendedEvent s.S) s

/-! ### Command bytes -/

/-- `P.pending <- 0 ; P.active <- none ; S.count <- 0 ; S.ovf <- false` (R88). -/
def clearProgress (s : State) : State :=
  { s with
    P := { s.P with pending := 0, active := none }
    S := { s.S with count := 0, ovf := false } }

/-- `abort()` (R88). `P.channel` and `P.buf` keep their values. -/
def abort (s : State) : State := clearProgress (drop .aborted s)

/-- Phase A for a command byte that does not complete the message: abort what is in progress, if anything
is (R80, R88). -/
def abortInProgress (s : State) : State := if mode s.P = .idle then s else abort s

/-- A command byte's step up to the point where it is classified in IDLE mode (R80, R81). -/
def commandByte (s : State) : State := abortInProgress (beginStep s)

/-- `P <- P_init ; S <- S_init` (R95). -/
def wireReset (s : State) : State := { s with P := Parser.init, S := Sysex.init s.cfg }

/-! ### Power-on reset -/

/-- Power-on reset (R170, R171). The instance keeps its parameters, and the inputs the host has put at the
block stay there (log entry 9). -/
def powerOnReset (s : State) : State := { State.resetWith s.cfg with inbox := s.inbox }

end Sys2Proof.Machine
end

