-- ==== Sys2Proof/Machine/Diagnostics.lean ====
section
/-! DEFINITION. The meaning of READ_DIAG (43_diagnostics.md R140). -/

namespace Sys2Proof.Machine

/-- READ_DIAG: `result <- DC`. It does not clear `DC` (R140). -/
def execReadDiag (s : State) : Host.Outcome State Fault Refusal :=
  .next (emitResult s.DC (beginStep s))

end Sys2Proof.Machine
end

