-- ==== Sys2Proof/Machine/Encoder.lean ====
section
/-! DEFINITION. The meanings of the Frame Encoder operations (42_frame_encoder.md R130 to R133). They change
no register: they only put out TX bytes. -/

namespace Sys2Proof.Machine

/-- ENC_ANALOG: `[ANALOG_MESSAGE | (pin & 0x0F), value & 0x7F, value >> 7]` (R130). -/
def execEncAnalog (pin : Byte) (value : Value14) (s : State) : Host.Outcome State Fault Refusal :=
  .next (emitTx (channelMessage Cmd.analogMessage (nibbleOf pin) value) (beginStep s))

/-- ENC_DIGITAL: `[DIGITAL_MESSAGE | (port & 0x0F), value & 0x7F, value >> 7]` (R131). -/
def execEncDigital (port : Byte) (value : Value14) (s : State) : Host.Outcome State Fault Refusal :=
  .next (emitTx (channelMessage s.cfg.cmds.digitalMessage (nibbleOf port) value) (beginStep s))

/-- ENC_EXTENDED: `[START_SYSEX, cmd] ++ payload ++ [END_SYSEX]`, unchecked (R132). -/
def execEncExtended (cmd : Byte) (payload : List Byte) (s : State) : Host.Outcome State Fault Refusal :=
  .next (emitTx (sysexMessage cmd payload) (beginStep s))

/-- ENC_VERSION: `[VER_MARKER, VER_MINOR, VER_MAJOR]` (R133). -/
def execEncVersion (s : State) : Host.Outcome State Fault Refusal :=
  .next (announce (beginStep s))

end Sys2Proof.Machine
end

