-- ==== Sys2Proof/Machine/Feed.lean ====
section
/-! DEFINITION. FEED of a raw byte, written from the pseudocode of 40_frame_decoder.md R80 and R89, apart from
the meanings of the wire bytes: a statement says that the two agree. -/

namespace Sys2Proof.Machine

/-- `classify_and_start(b)` (R89). -/
def classifyAndStart (b : Byte) (s : State) : State :=
  if commandClass b ∈ s.cfg.cmds.twoByteClasses then start (commandClass b) (channelOf b) 2 s
  else if commandClass b ∈ s.cfg.cmds.oneByteClasses then start (commandClass b) (channelOf b) 1 s
  else if commandClass b = Cmd.systemReset then wireReset s
  else if commandClass b = s.cfg.cmds.reportVersion then announce s
  else if commandClass b = Cmd.startSysex then beginSysex s
  else drop .unrecognized s

/-- Phase A if a message is in progress, then Phase B (R80, R81). -/
def feedByte (b : Byte) (s : State) : State :=
  match mode s.P with
  | .sysex =>
    if b < 0x80 then sysexData (dataOf b) s
    else if b = Cmd.endSysex then completeSysex s
    else classifyAndStart b (abort s)
  | .fixed =>
    if b < 0x80 then fixedData (dataOf b) s
    else classifyAndStart b (abort s)
  | .idle => classifyAndStart b s

/-- FEED (R80). -/
def execFeed (b : Byte) (s : State) : Host.Outcome State Fault Refusal :=
  .next (feedByte b (beginStep s))

end Sys2Proof.Machine
end

