-- ==== Sys2Proof/Machine/Registry.lean ====
section
/-! DEFINITION. The meanings of the registry operations (41_callback_registry.md R120, R121). -/

namespace Sys2Proof.Machine

/-- ATTACH: `T[key] <- h` (R120). -/
def execAttach (key : Byte) (h : HandlerId) (s : State) : Host.Outcome State Fault Refusal :=
  .next (setSlot key (some h) (beginStep s))

/-- DETACH: `T[key] <- NONE` (R121). -/
def execDetach (key : Byte) (s : State) : Host.Outcome State Fault Refusal :=
  .next (setSlot key none (beginStep s))

end Sys2Proof.Machine
end

