-- ==== Sys2Proof/Machine/WireChannel.lean ====
section
/-! DEFINITION. The meanings of the channel command bytes (40_frame_decoder.md R88 to R94, R101): abort
what is in progress, then start a message or drop the byte. -/

namespace Sys2Proof.Machine

/-- ANALOG_MESSAGE: `start(cls, ch, 2)` (R90). -/
def execAnalogMessage (c : Nibble) (s : State) : Host.Outcome State Fault Refusal :=
  .next (start Cmd.analogMessage c 2 (commandByte s))

/-- DIGITAL_MESSAGE: `start(cls, ch, 2)` (R91). -/
def execDigitalMessage (c : Nibble) (s : State) : Host.Outcome State Fault Refusal :=
  .next (start s.cfg.cmds.digitalMessage c 2 (commandByte s))

/-- SET_PIN_MODE: `start(cls, ch, 2)` (R92). -/
def execSetPinMode (c : Nibble) (s : State) : Host.Outcome State Fault Refusal :=
  .next (start s.cfg.cmds.setPinMode c 2 (commandByte s))

/-- REPORT_ANALOG: `start(cls, ch, 1)` (R93). -/
def execReportAnalog (c : Nibble) (s : State) : Host.Outcome State Fault Refusal :=
  .next (start s.cfg.cmds.reportAnalog c 1 (commandByte s))

/-- REPORT_DIGITAL: `start(cls, ch, 1)` (R94). -/
def execReportDigital (c : Nibble) (s : State) : Host.Outcome State Fault Refusal :=
  .next (start s.cfg.cmds.reportDigital c 1 (commandByte s))

/-- UNRECOGNIZED_CLASS_80: dropped. `P.channel` is not written (R101, R105). -/
def execUnrecognizedClass80 (_c : Nibble) (s : State) : Host.Outcome State Fault Refusal :=
  .next (drop .unrecognized (commandByte s))

/-- UNRECOGNIZED_CLASS_B0: dropped. `P.channel` is not written (R101, R105). -/
def execUnrecognizedClassB0 (_c : Nibble) (s : State) : Host.Outcome State Fault Refusal :=
  .next (drop .unrecognized (commandByte s))

end Sys2Proof.Machine
end

