-- ==== Sys2Proof/Machine/WireData.lean ====
section
/-! DEFINITION. The meaning of a data byte (40_frame_decoder.md R82 to R87, R98, R102). -/

namespace Sys2Proof.Machine

/-- DATA: accumulated in FIXED mode (R82), stored in SYSEX mode (R98), unrecognized in IDLE mode (R102). -/
def execData (d : Data7) (s : State) : Host.Outcome State Fault Refusal :=
  .next <|
    match mode s.P with
    | .idle => drop .unrecognized (beginStep s)
    | .fixed => fixedData d (beginStep s)
    | .sysex => sysexData d (beginStep s)

end Sys2Proof.Machine
end

