-- ==== Sys2Proof/Machine/WireSystem.lean ====
section
/-! DEFINITION. The meanings of the system command bytes (40_frame_decoder.md R95 to R101). -/

namespace Sys2Proof.Machine

/-- START_SYSEX (R97). -/
def execStartSysex (s : State) : Host.Outcome State Fault Refusal :=
  .next (beginSysex (commandByte s))

/-- END_SYSEX: completes the message in SYSEX mode (R99), and is an unrecognized command byte in every
other mode (R100). -/
def execEndSysex (s : State) : Host.Outcome State Fault Refusal :=
  .next <|
    match mode s.P with
    | .sysex => completeSysex (beginStep s)
    | .idle => drop .unrecognized (commandByte s)
    | .fixed => drop .unrecognized (commandByte s)

/-- REPORT_VERSION: the announcement, in the same step (R96). -/
def execReportVersion (s : State) : Host.Outcome State Fault Refusal :=
  .next (announce (commandByte s))

/-- SYSTEM_RESET: the wire reset of `P` and `S` (R95, R172). -/
def execSystemReset (s : State) : Host.Outcome State Fault Refusal :=
  .next (wireReset (commandByte s))

/-- The unassigned system byte 0xF1: dropped (R101). -/
def execUnrecognizedF1 (s : State) : Host.Outcome State Fault Refusal :=
  .next (drop .unrecognized (commandByte s))

/-- The unassigned system byte 0xF2: dropped (R101). -/
def execUnrecognizedF2 (s : State) : Host.Outcome State Fault Refusal :=
  .next (drop .unrecognized (commandByte s))

/-- The unassigned system byte 0xF3: dropped (R101). -/
def execUnrecognizedF3 (s : State) : Host.Outcome State Fault Refusal :=
  .next (drop .unrecognized (commandByte s))

/-- The unassigned system byte 0xF4: dropped (R101). -/
def execUnrecognizedF4 (s : State) : Host.Outcome State Fault Refusal :=
  .next (drop .unrecognized (commandByte s))

/-- The unassigned system byte 0xF5: dropped (R101). -/
def execUnrecognizedF5 (s : State) : Host.Outcome State Fault Refusal :=
  .next (drop .unrecognized (commandByte s))

/-- The unassigned system byte 0xF6: dropped (R101). -/
def execUnrecognizedF6 (s : State) : Host.Outcome State Fault Refusal :=
  .next (drop .unrecognized (commandByte s))

/-- The unassigned system byte 0xF8: dropped (R101). -/
def execUnrecognizedF8 (s : State) : Host.Outcome State Fault Refusal :=
  .next (drop .unrecognized (commandByte s))

/-- The unassigned system byte 0xFA: dropped (R101). -/
def execUnrecognizedFA (s : State) : Host.Outcome State Fault Refusal :=
  .next (drop .unrecognized (commandByte s))

/-- The unassigned system byte 0xFB: dropped (R101). -/
def execUnrecognizedFB (s : State) : Host.Outcome State Fault Refusal :=
  .next (drop .unrecognized (commandByte s))

/-- The unassigned system byte 0xFC: dropped (R101). -/
def execUnrecognizedFC (s : State) : Host.Outcome State Fault Refusal :=
  .next (drop .unrecognized (commandByte s))

/-- The unassigned system byte 0xFD: dropped (R101). -/
def execUnrecognizedFD (s : State) : Host.Outcome State Fault Refusal :=
  .next (drop .unrecognized (commandByte s))

/-- The unassigned system byte 0xFE: dropped (R101). -/
def execUnrecognizedFE (s : State) : Host.Outcome State Fault Refusal :=
  .next (drop .unrecognized (commandByte s))

end Sys2Proof.Machine
end

