-- ==== Sys2Proof/Machine/Dispatch.lean ====
section
/-! DEFINITION. The one match from instructions to their meanings, in the order of spec/opcode_table.json. -/

namespace Sys2Proof.Machine

def exec (i : Instr) (s : State) : Host.Outcome State Fault Refusal :=
  match i with
  | .data d => Sys2Proof.Machine.execData d s
  | .analogMessage c => Sys2Proof.Machine.execAnalogMessage c s
  | .digitalMessage c => Sys2Proof.Machine.execDigitalMessage c s
  | .setPinMode c => Sys2Proof.Machine.execSetPinMode c s
  | .reportAnalog c => Sys2Proof.Machine.execReportAnalog c s
  | .reportDigital c => Sys2Proof.Machine.execReportDigital c s
  | .unrecognizedClass80 c => Sys2Proof.Machine.execUnrecognizedClass80 c s
  | .unrecognizedClassB0 c => Sys2Proof.Machine.execUnrecognizedClassB0 c s
  | .startSysex => Sys2Proof.Machine.execStartSysex s
  | .endSysex => Sys2Proof.Machine.execEndSysex s
  | .reportVersion => Sys2Proof.Machine.execReportVersion s
  | .systemReset => Sys2Proof.Machine.execSystemReset s
  | .unrecognizedF1 => Sys2Proof.Machine.execUnrecognizedF1 s
  | .unrecognizedF2 => Sys2Proof.Machine.execUnrecognizedF2 s
  | .unrecognizedF3 => Sys2Proof.Machine.execUnrecognizedF3 s
  | .unrecognizedF4 => Sys2Proof.Machine.execUnrecognizedF4 s
  | .unrecognizedF5 => Sys2Proof.Machine.execUnrecognizedF5 s
  | .unrecognizedF6 => Sys2Proof.Machine.execUnrecognizedF6 s
  | .unrecognizedF8 => Sys2Proof.Machine.execUnrecognizedF8 s
  | .unrecognizedFA => Sys2Proof.Machine.execUnrecognizedFA s
  | .unrecognizedFB => Sys2Proof.Machine.execUnrecognizedFB s
  | .unrecognizedFC => Sys2Proof.Machine.execUnrecognizedFC s
  | .unrecognizedFD => Sys2Proof.Machine.execUnrecognizedFD s
  | .unrecognizedFE => Sys2Proof.Machine.execUnrecognizedFE s
  | .feed b => Sys2Proof.Machine.execFeed b s
  | .attach key h => Sys2Proof.Machine.execAttach key h s
  | .detach key => Sys2Proof.Machine.execDetach key s
  | .encAnalog pin value => Sys2Proof.Machine.execEncAnalog pin value s
  | .encDigital port value => Sys2Proof.Machine.execEncDigital port value s
  | .encExtended cmd payload => Sys2Proof.Machine.execEncExtended cmd payload s
  | .encVersion => Sys2Proof.Machine.execEncVersion s
  | .readDiag => Sys2Proof.Machine.execReadDiag s

end Sys2Proof.Machine
end

