-- ==== Sys2Proof/Machine/Fetch.lean ====
section
/-! DEFINITION. Taking the next input of the host (10_state.md R30, log entry 1). -/

namespace Sys2Proof.Machine

/-- What the block finds at its inputs. -/
inductive Fetched where
  /-- The host has put nothing there. -/
  | nothing
  /-- A power-on reset, and the state without that input. -/
  | reset (s : State)
  /-- An instruction, and the state without its word. -/
  | instr (i : Instr) (s : State)
  /-- A word that R152 refuses. -/
  | reject (why : Reject)

/-- Takes the first input and decodes it with the instance's command constants (R30, R70, R152). -/
def fetch (s : State) : Fetched :=
  match s.inbox with
  | [] => .nothing
  | .powerOn :: rest => .reset { s with inbox := rest }
  | .word w :: rest =>
    match decode s.cfg.cmds w with
    | .ok i => .instr i { s with inbox := rest }
    | .error why => .reject why

/-- Puts a word in front of the inputs. -/
def offer (w : PortWord) (s : State) : State := { s with inbox := .word w :: s.inbox }

end Sys2Proof.Machine
end

