-- ==== Sys2Proof/Machine/Step.lean ====
section
/-! DEFINITION. One step of the block (10_state.md R30, R34), and how the host's word comes to it. -/

namespace Sys2Proof.Machine

/-- Takes one input of the host and runs it. A step is one host operation or a power-on reset
(00_scope.md R13). With no input there is no step. -/
def step (s : State) : Host.Outcome State Fault Refusal :=
  match fetch s with
  | .nothing => .refused .noOperation
  | .reset s => .next (powerOnReset s)
  | .instr i s => exec i s
  | .reject why => .refused (.rejected why)

/-- `s` with the table word put in front of the inputs, so that the next step takes it (log entries 1, 3). -/
def State.withFetchWord (s : State) (nbits w : Nat) : State := offer (tableWord nbits w) s

end Sys2Proof.Machine
end

