-- ==== Sys2Proof/Safety.lean ====
section
/-! DEFINITION. The terms claims are stated in: the invariant of 10_state.md R22 and R24, runs of operations and
what they put out, and the tables of 30_encoding.md R72 and 43_diagnostics.md R141 read as functions. -/

namespace Sys2Proof.Machine

/-! ### The invariant -/

/-- The data bytes a fixed-payload class awaits when it starts, with the command constants `c` (R66). -/
def payloadBytes (c : Commands) (k : Byte) : Nat := if k ∈ c.twoByteClasses then 2 else 1

/-- The invariants of 10_state.md R22, the legal parameters of R8 and R9, and the bounds R24 and R66 give. -/
structure Inv (s : State) : Prop where
  /-- `SYSEX_CAP` is at least 1 (R8), and the command constants conform (R9). -/
  cfgLegal : s.cfg.legal
  /-- R22 item 1: `P.pending ≤ FIXED_CAP`. -/
  pendingLe : s.P.pending.toNat ≤ 2
  /-- R22 item 3: bytes are awaited exactly in a message of one of the five classes. -/
  pendingIff : 0 < s.P.pending.toNat ↔ ∃ k ∈ s.cfg.cmds.fixedClasses, s.P.active = some k
  /-- R24: every class in progress is one of the five or `START_SYSEX`. -/
  activeLegal : ∀ k, s.P.active = some k → k ∈ s.cfg.cmds.fixedClasses ∨ k = Cmd.startSysex
  /-- R66: a class never awaits more bytes than its payload has. -/
  payloadLe : ∀ k ∈ s.cfg.cmds.fixedClasses, s.P.active = some k →
    s.P.pending.toNat ≤ payloadBytes s.cfg.cmds k
  /-- R22 item 5: `S.count ≤ SYSEX_CAP`. -/
  countLe : s.S.count ≤ s.cfg.sysexCap
  /-- R22 item 6: no count and no overflow outside SYSEX mode. -/
  sysexClear : mode s.P ≠ .sysex → s.S.count = 0 ∧ s.S.ovf = false
  /-- R23: the buffer has `SYSEX_CAP` entries. -/
  bufLength : s.S.buf.length = s.cfg.sysexCap

/-! ### Runs -/

/-- Runs operations, one step each, in order (R34, R50). Answers the last state and the outputs of every
step, or none if a step gives no next state. -/
def runOps : List Instr → State → Option (State × List Outputs)
  | [], s => some (s, [])
  | i :: rest, s =>
    match exec i s with
    | .next t => (runOps rest t).map fun r => (r.1, t.out :: r.2)
    | .fault _ => none
    | .refused _ => none

/-- The events of a run other than `NoEvent`, in step order. -/
def eventsOf (os : List Outputs) : List Event := (os.map (·.event)).filter (fun e => e ≠ .noEvent)

/-- The drop causes of a run, in order. -/
def causesOf (os : List Outputs) : List DropCause := os.flatMap (·.diag)

/-! ### Command bytes -/

/-- The state in which a command byte is classified (R80, R81, R88), written out: what stood before if the
decoder was idle, and the state after an abort otherwise. -/
def classified (s : State) : State :=
  if mode s.P = .idle then { s with out := Outputs.nothing }
  else
    { s with
      P := { s.P with pending := 0, active := none }
      S := { s.S with count := 0, ovf := false }
      DC := s.DC + 1
      out := { Outputs.nothing with diag := [.aborted] } }

/-- The state with one more drop recorded as UNRECOGNIZED (R141), written out. -/
def unrecognizedAfter (s : State) : State :=
  { s with DC := s.DC + 1, out := { s.out with diag := s.out.diag ++ [.unrecognized] } }

/-- The bytes that 30_encoding.md R72 calls recognized commands, by their numbers: the five classes of 16, and
three system bytes. END_SYSEX is recognized in SYSEX mode only. -/
def recognizedCommand (c : Commands) (b : Byte) : Bool :=
  let n := b.toNat
  if n < 0xF0 then
    [0x90, c.digitalMessage.toNat, c.setPinMode.toNat, c.reportAnalog.toNat, c.reportDigital.toNat].contains
      (n - n % 16)
  else [0xF0, c.reportVersion.toNat, 0xFF].contains n

/-- The drop causes of a FEED of `b`, from the tables of R72 and R141. -/
def feedCauses (s : State) (b : Byte) : List DropCause :=
  let unrecognized := if recognizedCommand s.cfg.cmds b then [] else [DropCause.unrecognized]
  match mode s.P with
  | .idle => unrecognized
  | .fixed => if b.toNat < 0x80 then [] else .aborted :: unrecognized
  | .sysex =>
    if b.toNat < 0x80 then []
    else if b.toNat = 0xF7 then
      if s.S.ovf then [.sysexOverflow] else if s.S.count = 0 then [.emptySysex] else []
    else .aborted :: unrecognized

/-! ### Fixed-payload messages -/

/-- The event of a completed message: a `Call` if the slot held a handler, else `NoEvent` (R85). -/
def callEvent (slot : Option HandlerId) (key : Byte) (ch : Nibble) (v : Value14) : Event :=
  match slot with
  | some h => .call h key ch v
  | none => .noEvent

/-- What a rule such as R90 says of one class, in every instance whose command constants conform: its bytes are
`class | channel`; its start aborts what is in progress and latches the channel; and once its `n` data bytes have
come, and not before, the handler that the slot of the class then holds is called with the channel and the value. -/
def IsMessageClass (mk : Nibble → Instr) (clsOf : Commands → Byte) (n : Nat) : Prop :=
  ∀ (s : State) (c : Nibble) (cls : Byte), s.cfg.cmds.Conforming → cls = clsOf s.cfg.cmds →
    decode s.cfg.cmds (.wire (cls.toNat + c.toNat)) = .ok (mk c) ∧
    exec (mk c) s = .next
      { classified s with
        P := { (classified s).P with pending := BitVec.ofNat 2 n, active := some cls, channel := c } } ∧
    (n = 2 → ∀ d1 d2 : Data7, ∃ (v : Value14) (t : State),
      v.toNat = d1.toNat + 128 * d2.toNat ∧
      runOps [mk c, .data d1, .data d2] s = some (t,
        [(classified s).out, Outputs.nothing,
          { Outputs.nothing with event := callEvent (slot s cls) cls c v }]) ∧
      mode t.P = .idle) ∧
    (n = 1 → ∀ d : Data7, ∃ (v : Value14) (t : State),
      v.toNat = d.toNat ∧
      runOps [mk c, .data d] s = some (t,
        [(classified s).out, { Outputs.nothing with event := callEvent (slot s cls) cls c v }]) ∧
      mode t.P = .idle)

/-! ### Kinds of instruction -/

/-- The host operations that are no FEED: registry, encoder and diagnostics (R104). -/
def isOtherHostOp : Instr → Bool
  | .attach .. | .detach _ | .encAnalog .. | .encDigital .. | .encExtended .. | .encVersion | .readDiag => true
  | .data _ | .analogMessage _ | .digitalMessage _ | .setPinMode _ | .reportAnalog _ | .reportDigital _
  | .unrecognizedClass80 _ | .unrecognizedClassB0 _ | .startSysex | .endSysex | .reportVersion | .systemReset
  | .unrecognizedF1 | .unrecognizedF2 | .unrecognizedF3 | .unrecognizedF4 | .unrecognizedF5 | .unrecognizedF6
  | .unrecognizedF8 | .unrecognizedFA | .unrecognizedFB | .unrecognizedFC | .unrecognizedFD | .unrecognizedFE
  | .feed _ => false

/-- The wire byte an instruction feeds with the command constants `c`, none for an operation that feeds no byte. -/
def byteOf (c : Commands) (i : Instr) : Option Byte :=
  match i with
  | .feed b => some b
  | i => match encode c i with
    | .wire n => some (BitVec.ofNat 8 n)
    | .op _ _ => none

/-! ### Renaming handlers (R126) -/

/-- An event with its handler renamed. -/
def renameEvent (f : HandlerId → HandlerId) : Event → Event
  | .noEvent => .noEvent
  | .call h key a v => .call (f h) key a v
  | .extended cmd data => .extended cmd data

/-- An instruction with its handler operand renamed. -/
def renameInstr (f : HandlerId → HandlerId) : Instr → Instr
  | .attach key h => .attach key (f h)
  | i => i

/-- A state with every handler in the registry and in the event output renamed. -/
def renameState (f : HandlerId → HandlerId) (s : State) : State :=
  { s with T := s.T.map (Option.map f), out := { s.out with event := renameEvent f s.out.event } }

end Sys2Proof.Machine
end

