-- ==== Sys2Proof/Certificates/Slice0/Obligations.lean ====
section
/-! DEFINITION. The statements for the provers. Each docstring names the rule of spec/ that it formalises. -/

open Sys2Proof Sys2Proof.Machine

/-! ### Reset -/

/-- R170, R171: the state and the outputs right after power-on reset, for every assignment of the open
parameters; the first input after it is the first step. -/
def Obligations.PowerOnLeavesInitialState : Prop :=
  ∀ c : Config, ∀ s : State, s = State.resetWith c →
    s.P = { pending := 0, active := none, channel := 0, buf0 := 0, buf1 := 0 } ∧
    s.S.count = 0 ∧ s.S.ovf = false ∧ s.S.buf.length = c.sysexCap ∧ (∀ d ∈ s.S.buf, d = 0) ∧
    (∀ key, slot s key = none) ∧ s.DC = 0 ∧ mode s.P = .idle ∧ s.cfg = c ∧
    s.out.event = .noEvent ∧ s.out.diag = [] ∧
    s.out.tx = (if c.announceOnReset then
      [c.verMarker, c.verMinor.setWidth 8, c.verMajor.setWidth 8] else []) ∧
    (∀ w i, decode c.cmds w = .ok i → step { s with inbox := [.word w] } = exec i s)

/-- 10_state.md section 2 and 70_reset_and_hazards.md section 1: a power-on reset at any time gives the state
of a new instance. That it is an input which keeps the parameters and the inputs behind it is the model's
choice (log entry 9). -/
def Obligations.PowerOnInputResets : Prop :=
  ∀ (s : State) (rest : List HostInput), s.inbox = .powerOn :: rest →
    step s = .next { State.resetWith s.cfg with inbox := rest }

/-- R22, R36: the reset state meets the invariant, for every legal parameter assignment. -/
def Obligations.ResetMeetsInvariant : Prop :=
  (∀ c : Config, c.legal → Inv (State.resetWith c)) ∧ Inv State.reset

/-- 10_state.md section 1 (the invariants of R22, the modes of R24): every step keeps the invariant. -/
def Obligations.StepKeepsInvariant : Prop :=
  ∀ s t : State, Inv s → step s = .next t → Inv t

/-! ### Encoding -/

/-- 30_encoding.md sections 1 and 4, for every conforming assignment of R9: the decoder reads back every instruction
from its encoding. Which byte encodes a row of an unassigned class or byte outside the constants of R8 is the model's
choice (log entry 7). -/
def Obligations.DecodeEncode : Prop :=
  ∀ (c : Commands) (i : Instr), c.Conforming → decode c (encode c i) = .ok i

/-- 30_encoding.md sections 1 and 4, for every conforming assignment of R9: a word the decoder accepts is the encoding of
what it reads. That no two words mean one instruction follows, and is no sentence of 30_encoding.md. Which byte encodes a
row of an unassigned class or byte outside the constants of R8 (log entry 7), and that a handler has one code (log
entry 4), are the model's choices. -/
def Obligations.EncodeDecode : Prop :=
  ∀ (c : Commands) (w : PortWord) (i : Instr), c.Conforming → decode c w = .ok i → encode c i = w

/-- 60_exceptions.md section 1 (R152): the decoder accepts exactly the words with a HOP, an operand count and
operand types that R70 and R71 give. That a wrong operand count is refused (log entry 12), and that a handler operand
is a code (log entry 4), are the model's choices; so are the rows of the unassigned bytes outside the constants of R8, on
which it rests that every byte decodes there (log entry 7). -/
def Obligations.DecodeAcceptsExactlyWellFormed : Prop :=
  ∀ (c : Commands) (w : PortWord), c.Conforming → ((∃ i, decode c w = .ok i) ↔ w.wellFormed = true)

/-- 30_encoding.md section 5 (the map of R72), for every conforming assignment of R9: each of the 256 bytes matches
exactly one row of the wire table, and decodes to the instruction of that row. R72 gives the map for the constants of R8.
Which rows the unassigned classes and bytes belong to outside those constants, and so that each such byte matches exactly
one row, is the model's choice (log entry 7). -/
def Obligations.EachByteMatchesOneRow : Prop :=
  ∀ (c : Commands) (b : Byte), c.Conforming →
    ∃ r ∈ wireTable c, (wireTable c).filter (fun r => r.matches b) = [r] ∧
      decode c (wireWord b) = .ok (r.build b)

/-- 30_encoding.md sections 1, 2 and 4: words written out from the encoding tables, with the constants of R8. The tables
give the ATTACH word its HOP and its operands; that the operand 0 is a handler, and which one, is the model's choice
(log entry 4). -/
def Obligations.SpecWordsDecode : Prop :=
  decode Commands.default (.wire 0b01000010) = .ok (.data 0x42) ∧
  decode Commands.default (.wire 0b10010011) = .ok (.analogMessage 3) ∧
  decode Commands.default (.wire 0b11100101) = .ok (.reportDigital 5) ∧
  decode Commands.default (.wire 0b10110001) = .ok (.unrecognizedClassB0 1) ∧
  decode Commands.default (.wire 0b11110111) = .ok .endSysex ∧
  decode Commands.default (.wire 0b11111010) = .ok .unrecognizedFA ∧
  decode Commands.default (.op 0b000 [0x93]) = .ok (.feed 0x93) ∧
  decode Commands.default (.op 0b001 [0x90, 0]) = .ok (.attach 0x90 HandlerId.first) ∧
  decode Commands.default (.op 0b011 [0x03, 133]) = .ok (.encAnalog 3 133) ∧
  decode Commands.default (.op 0b101 [0x01, 10, 20, 30]) = .ok (.encExtended 1 [10, 20, 30])

/-- R134: a step that finds ENC_ANALOG or ENC_DIGITAL with a value above 16383 is refused, and one whose value
is in 0..16383 is accepted for every byte `pin` or `port`. -/
def Obligations.EncoderValueAbove16383Refused : Prop :=
  ∀ (s : State) (rest : List HostInput) (hop pin v : Nat), hop = 3 ∨ hop = 4 → pin < 256 →
    s.inbox = .word (.op hop [pin, v]) :: rest →
    if 16383 < v then step s = .refused (.rejected (.valueTooWide v))
    else ∃ t, step s = .next t

/-- 30_encoding.md sections 2 and 6 (the shapes of R64, the listings of R75): the bytes of a listing decode to the
instructions of the message, low seven bits first. -/
def Obligations.ListingsDecodeToTheirMessages : Prop :=
  ∀ (c : Commands) (ch : Nibble) (v : Value14) (d cmd : Data7) (data : List Data7), c.Conforming →
    ∃ lo hi : Data7,
    v.toNat = lo.toNat + 128 * hi.toNat ∧
    ((Listing.analog ch v).bytes c).map (fun b => decode c (wireWord b)) =
      [.ok (.analogMessage ch), .ok (.data lo), .ok (.data hi)] ∧
    ((Listing.digital ch v).bytes c).map (fun b => decode c (wireWord b)) =
      [.ok (.digitalMessage ch), .ok (.data lo), .ok (.data hi)] ∧
    ((Listing.setPinMode ch v).bytes c).map (fun b => decode c (wireWord b)) =
      [.ok (.setPinMode ch), .ok (.data lo), .ok (.data hi)] ∧
    ((Listing.reportAnalog ch d).bytes c).map (fun b => decode c (wireWord b)) =
      [.ok (.reportAnalog ch), .ok (.data d)] ∧
    ((Listing.reportDigital ch d).bytes c).map (fun b => decode c (wireWord b)) =
      [.ok (.reportDigital ch), .ok (.data d)] ∧
    ((Listing.sysex cmd data).bytes c).map (fun b => decode c (wireWord b)) =
      [.ok .startSysex, .ok (.data cmd)] ++ data.map (fun x => .ok (.data x)) ++ [.ok .endSysex]

/-! ### The step -/

/-- 10_state.md section 2 (R30, R34: each step takes one host operation, and is one indivisible step): a step runs the
instruction that the next port word decodes to, on the state without that word. That the next word is the head of a
queue `inbox`, and that the inputs behind it stay, is the model's choice (log entry 1), and so is a wire byte at a port
of its own (log entry 2). -/
def Obligations.StepRunsDecoded : Prop :=
  ∀ (s : State) (w : PortWord) (rest : List HostInput) (i : Instr),
    s.inbox = .word w :: rest → decode s.cfg.cmds w = .ok i → step s = exec i { s with inbox := rest }

/-- 60_exceptions.md section 1 (R152): a step is refused only when the host has put nothing at the block or the
next word is not well-formed. Model's choices, which R152 does not list: that an empty port is a refusal (log entry 1),
that a word with a wrong number of operands or a HOP above 7 is one (log entry 12), which operands of ATTACH name no
handler (log entry 4), and the rows by which every byte decodes outside the constants of R8 (log entry 7). -/
def Obligations.RefusedOnlyWithoutOperation : Prop :=
  ∀ (s : State) (r : Refusal), s.cfg.cmds.Conforming → (step s = .refused r ↔
    (s.inbox = [] ∧ r = .noOperation) ∨
    ∃ w rest why, s.inbox = .word w :: rest ∧ w.wellFormed = false ∧ decode s.cfg.cmds w = .error why ∧
      r = .rejected why)

/-- 20_memory.md section 4 (R50): operations put at the port take effect one at a time, in the order in which the
host put them there, and no instruction touches the inputs behind it. That they stand in a queue (log
entry 1), and which byte encodes a row of an unassigned class or byte outside the constants of R8 (log entry 7), are the
model's choices. -/
def Obligations.StepsRunInIssueOrder : Prop :=
  ∀ (is : List Instr) (s t : State) (os : List Outputs) (rest : List HostInput),
    s.cfg.cmds.Conforming → runOps is s = some (t, os) →
    Sys2Proof.core.run is.length { s with inbox := is.map (fun i => .word (encode s.cfg.cmds i)) ++ rest } =
      .next { t with inbox := rest } ∧ t.inbox = s.inbox

/-- R150: the block raises no fault, and no FEED input is refused. Every instruction completes in every state, and
so does every byte sequence. -/
def Obligations.EveryInstructionCompletes : Prop :=
  (∀ (i : Instr) (s : State), ∃ t, exec i s = .next t) ∧
  (∀ (bs : List Byte) (s : State), ∃ t os, runOps (feeds bs) s = some (t, os) ∧ os.length = bs.length)

/-- 40_frame_decoder.md sections 1 and 4 (R80, R89, the map of R72): FEED of a byte has, in every state of an instance
with conforming constants, exactly the effect of the wire instruction that the byte decodes to. That a wire byte is an
instruction (log entry 2), and which one an unassigned byte is outside the constants of R8 (log entry 7), are the model's
choices. -/
def Obligations.FeedRunsWireByte : Prop :=
  ∀ (b : Byte) (s : State), s.cfg.cmds.Conforming → ∃ i t, decode s.cfg.cmds (wireWord b) = .ok i ∧
    exec i s = .next t ∧ exec (.feed b) s = .next t

/-! ### Fixed-payload messages -/

/-- R90, R91, R92: the classes with a 2-byte payload, for every conforming assignment; the rules give the bytes of
R8, which the reset instance has. -/
def Obligations.TwoByteMessageClasses : Prop :=
  IsMessageClass Instr.analogMessage (fun _ => 0x90) 2 ∧
  IsMessageClass Instr.digitalMessage (·.digitalMessage) 2 ∧ Config.default.cmds.digitalMessage = 0xA0 ∧
  IsMessageClass Instr.setPinMode (·.setPinMode) 2 ∧ Config.default.cmds.setPinMode = 0xC0

/-- R93, R94: the classes with a 1-byte payload, for every conforming assignment; the rules give the bytes of R8, which
the reset instance has. -/
def Obligations.OneByteMessageClasses : Prop :=
  IsMessageClass Instr.reportAnalog (·.reportAnalog) 1 ∧ Config.default.cmds.reportAnalog = 0xD0 ∧
  IsMessageClass Instr.reportDigital (·.reportDigital) 1 ∧ Config.default.cmds.reportDigital = 0xE0

/-- R83: the store order of both data bytes of a 2-byte payload, and of the one of a 1-byte payload. -/
def Obligations.DataStoredAtDecrementedCount : Prop :=
  ∀ (s : State) (d : Data7), mode s.P = .fixed →
    (s.P.pending = 2 → exec (.data d) s = .next
      { s with P := { s.P with pending := 1, buf1 := d }, out := Outputs.nothing }) ∧
    (s.P.pending = 1 → ∃ t, exec (.data d) s = .next t ∧
      t.P = { s.P with pending := 0, active := none, buf0 := d })

/-- R84, R85, R87 (with the value of R86): the data byte that brings the count to 0 completes the message,
dispatches to the handler the slot of the class now holds, and leaves the decoder idle. Everything else stays. -/
def Obligations.LastDataByteDispatches : Prop :=
  ∀ (s : State) (d : Data7) (k : Byte), s.cfg.cmds.Conforming → k ∈ s.cfg.cmds.fixedClasses →
    s.P.active = some k → s.P.pending = 1 →
    ∃ v : Value14,
      v.toNat = (if k ∈ [0x90, s.cfg.cmds.digitalMessage, s.cfg.cmds.setPinMode] then
        s.P.buf1.toNat + 128 * d.toNat else d.toNat) ∧
      exec (.data d) s = .next
        { s with
          P := { s.P with pending := 0, active := none, buf0 := d }
          out := { Outputs.nothing with event := callEvent (slot s k) k s.P.channel v } }

/-- R102: a data byte in IDLE mode is an unrecognized command byte; so the byte after a completed message is
dropped, and there is no running status. -/
def Obligations.IdleDataByteDropped : Prop :=
  (∀ (s : State) (d : Data7), mode s.P = .idle → exec (.data d) s = .next
    { s with DC := s.DC + 1, out := { Outputs.nothing with diag := [.unrecognized] } }) ∧
  (∀ (s : State) (c : Nibble) (d1 d2 d3 : Data7), ∃ t o1 o2 o3,
    runOps [.analogMessage c, .data d1, .data d2, .data d3] s =
      some (t, [o1, o2, o3, { Outputs.nothing with diag := [.unrecognized] }]))

/-- R88: a command byte in the middle of a message aborts it, counts one ABORTED, and then does exactly what it
does in the idle state the abort leaves, where `P.channel` and `P.buf` are kept. -/
def Obligations.CommandByteAbortsMessage : Prop :=
  ∀ (s : State) (b : Byte), 0x80 ≤ b.toNat →
    (mode s.P = .fixed ∨ (mode s.P = .sysex ∧ b ≠ 0xF7)) →
    ∃ t u : State,
      exec (.feed b)
        { s with
          P := { s.P with pending := 0, active := none }
          S := { s.S with count := 0, ovf := false }
          DC := s.DC + 1 } = .next u ∧
      exec (.feed b) s = .next t ∧
      t = { u with out := { u.out with diag := .aborted :: u.out.diag } }

/-- R104: no number of other host operations changes the message in progress, and a message whose last byte comes
only after them completes as it would have without them. -/
def Obligations.PartialMessagePersists : Prop :=
  ∀ ops : List Instr, (∀ i ∈ ops, isOtherHostOp i = true) →
    (∀ s : State, ∃ t os, runOps ops s = some (t, os) ∧ t.P = s.P ∧ t.S = s.S ∧ t.DC = s.DC) ∧
    (∀ (s : State) (c : Nibble) (d1 d2 : Data7), (∀ key h, Instr.attach key h ∉ ops) →
      (∀ key, Instr.detach key ∉ ops) → ∃ t os v,
        v.toNat = d1.toNat + 128 * d2.toNat ∧
        runOps ([.analogMessage c, .data d1] ++ ops ++ [.data d2]) s = some (t, os) ∧
        eventsOf os = eventsOf [{ Outputs.nothing with event := callEvent (slot s 0x90) 0x90 c v }] ∧
        mode t.P = .idle)

/-! ### Extended messages -/

/-- R97: START_SYSEX, from every mode. -/
def Obligations.StartSysexBegins : Prop :=
  ∀ s : State, exec .startSysex s = .next
    { classified s with
      P := { (classified s).P with active := some 0xF0 }
      S := { s.S with count := 0, ovf := false } }

/-- R98: a data byte in SYSEX mode is stored in wire order, or sets `S.ovf` when the buffer is full. -/
def Obligations.SysexDataStored : Prop :=
  ∀ (s : State) (d : Data7), mode s.P = .sysex → s.S.buf.length = s.cfg.sysexCap →
    if s.S.count < s.cfg.sysexCap then
      ∃ t, exec (.data d) s = .next t ∧
        t = { s with S := { s.S with buf := t.S.buf, count := s.S.count + 1 }, out := Outputs.nothing } ∧
        t.S.buf.length = s.S.buf.length ∧
        ∀ j, t.S.buf[j]? = if j = s.S.count then some d else s.S.buf[j]?
    else exec (.data d) s = .next { s with S := { s.S with ovf := true }, out := Outputs.nothing }

/-- R99: END_SYSEX in SYSEX mode. The event does not depend on the registry. -/
def Obligations.EndSysexCompletes : Prop :=
  ∀ s : State, mode s.P = .sysex → ∃ t, exec .endSysex s = .next t ∧
    t = { s with
      P := { s.P with active := none }, S := { s.S with count := 0, ovf := false }
      DC := t.DC, out := t.out } ∧
    (s.S.ovf = true →
      t.DC = s.DC + 1 ∧ t.out = { Outputs.nothing with diag := [.sysexOverflow] }) ∧
    (s.S.ovf = false → s.S.count = 0 →
      t.DC = s.DC + 1 ∧ t.out = { Outputs.nothing with diag := [.emptySysex] }) ∧
    (s.S.ovf = false → ∀ cmd data, s.S.count = data.length + 1 → s.S.buf.take s.S.count = cmd :: data →
      t.DC = s.DC ∧ t.out = { Outputs.nothing with event := .extended cmd data })

/-- R100: END_SYSEX outside SYSEX mode is an unrecognized command byte. -/
def Obligations.EndSysexOutsideSysexDropped : Prop :=
  ∀ s : State, mode s.P ≠ .sysex → exec .endSysex s = .next (unrecognizedAfter (classified s))

/-- 40_frame_decoder.md section 5 (R97 to R99) and R142 in 43_diagnostics.md: a message of more than SYSEX_CAP
bytes after START_SYSEX, fed to an idle decoder, gives no event and exactly one drop. -/
def Obligations.OversizedSysexDroppedOnce : Prop :=
  ∀ (s : State) (ds : List Data7), mode s.P = .idle → s.cfg.sysexCap < ds.length →
    ∃ t os, runOps (.startSysex :: ds.map Instr.data ++ [.endSysex]) s = some (t, os) ∧
      eventsOf os = [] ∧ causesOf os = [.sysexOverflow] ∧ mode t.P = .idle ∧ t.DC = s.DC + 1

/-! ### System commands and unrecognized bytes -/

/-- R95: SYSTEM_RESET from every mode, and repeated. -/
def Obligations.SystemResetResetsParser : Prop :=
  ∀ s : State, ∃ t, exec .systemReset s = .next t ∧
    t = { classified s with
      P := { pending := 0, active := none, channel := 0, buf0 := 0, buf1 := 0 }
      S := { count := 0, ovf := false, buf := List.replicate s.cfg.sysexCap 0 } } ∧
    exec .systemReset t = .next { t with out := Outputs.nothing }

/-- R143, R172: a wire reset clears neither the drop counter nor the registry and emits no announcement; power-on
reset clears the counter. -/
def Obligations.WireResetKeepsCounterAndRegistry : Prop :=
  (∀ s : State, s.cfg.cmds.Conforming → ∃ t, exec (.feed 0xFF) s = .next t ∧ t.P = Parser.init ∧ t.S = Sysex.init s.cfg ∧
    t.T = s.T ∧ t.DC = (if mode s.P = .idle then s.DC else s.DC + 1) ∧
    t.out.event = .noEvent ∧ t.out.tx = []) ∧
  (∀ (s : State) (rest : List HostInput), ∃ t, step { s with inbox := .powerOn :: rest } = .next t ∧ t.DC = 0)

/-- R96: REPORT_VERSION replies in the same step and changes no register beyond the abort's. -/
def Obligations.ReportVersionReplies : Prop :=
  ∀ s : State, exec .reportVersion s = .next
    { classified s with
      out := { (classified s).out with
        tx := [s.cfg.verMarker, s.cfg.verMinor.setWidth 8, s.cfg.verMajor.setWidth 8] } }

/-- R101: every unassigned command byte, and END_SYSEX outside SYSEX mode, only counts an UNRECOGNIZED, after the
abort if there is one; in particular it does not write `P.channel`. -/
def Obligations.UnassignedCommandDropped : Prop :=
  ∀ (s : State) (c : Nibble) (i : Instr),
    i ∈ [Instr.unrecognizedClass80 c, .unrecognizedClassB0 c, .unrecognizedF1, .unrecognizedF2,
      .unrecognizedF3, .unrecognizedF4, .unrecognizedF5, .unrecognizedF6, .unrecognizedF8, .unrecognizedFA,
      .unrecognizedFB, .unrecognizedFC, .unrecognizedFD, .unrecognizedFE] ∨
      (i = .endSysex ∧ mode s.P ≠ .sysex) →
    exec i s = .next (unrecognizedAfter (classified s))

/-! ### Every FEED -/

/-- 40_frame_decoder.md section 7 (R103): what one FEED can put out. -/
def Obligations.FeedOutputsBounded : Prop :=
  ∀ (s t : State) (b : Byte), s.cfg.cmds.Conforming → exec (.feed b) s = .next t →
    (t.out.tx = [] ∨ (b = s.cfg.cmds.reportVersion ∧
      t.out.tx = [s.cfg.verMarker, s.cfg.verMinor.setWidth 8, s.cfg.verMajor.setWidth 8])) ∧
    t.out.diag.length ≤ 2 ∧
    (t.out.diag.length = 2 → t.out.diag = [.aborted, .unrecognized]) ∧
    (t.out.event ≠ .noEvent → t.out.tx = [] ∧ t.out.diag = []) ∧
    t.out.result = none

/-- R141, R151: the causes each FEED records, from the table of situations; `DC` moves by their number, modulo 2^16;
every other host operation records none; and each cause has a code from 1 to 4 of its own. -/
def Obligations.DropsExactlyAccounted : Prop :=
  (∀ (s : State) (b : Byte), s.cfg.cmds.Conforming → ∃ t, exec (.feed b) s = .next t ∧
    t.out.diag = feedCauses s b ∧
    t.DC.toNat = (s.DC.toNat + (feedCauses s b).length) % 65536) ∧
  (∀ (s t : State) (i : Instr), isOtherHostOp i = true → exec i s = .next t →
    t.out.diag = [] ∧ t.DC = s.DC) ∧
  causeCode .unrecognized = 1 ∧ causeCode .aborted = 2 ∧ causeCode .sysexOverflow = 3 ∧
    causeCode .emptySysex = 4

/-- 40_frame_decoder.md section 7 (R105): only the five channel-command starts and SYSTEM_RESET write
`P.channel`. Which byte an instruction of an unassigned row feeds outside the constants of R8 is the model's choice
(log entry 7). -/
def Obligations.ChannelWrittenOnlyByStarts : Prop :=
  ∀ (s t : State) (i : Instr), s.cfg.cmds.Conforming → exec i s = .next t →
    (∀ b, byteOf s.cfg.cmds i = some b → classOf b ∉ s.cfg.cmds.fixedClasses ∧ b ≠ 0xFF) →
    t.P.channel = s.P.channel

/-- 20_memory.md section 1 (the table of R40): the fixed-payload buffer is written only by a data byte in FIXED mode
and the sysex buffer only by a data byte in SYSEX mode, and both by SYSTEM_RESET. Which byte an instruction of an
unassigned row feeds outside the constants of R8 is the model's choice (log entry 7). -/
def Obligations.BuffersWrittenOnlyByDataBytes : Prop :=
  ∀ (s t : State) (i : Instr), s.cfg.cmds.Conforming → exec i s = .next t → byteOf s.cfg.cmds i ≠ some 0xFF →
    ((∀ b, byteOf s.cfg.cmds i = some b → mode s.P = .fixed → 0x80 ≤ b.toNat) →
      t.P.buf0 = s.P.buf0 ∧ t.P.buf1 = s.P.buf1) ∧
    ((∀ b, byteOf s.cfg.cmds i = some b → mode s.P = .sysex → 0x80 ≤ b.toNat) → t.S.buf = s.S.buf)

/-! ### The registry -/

/-- R120: ATTACH. -/
def Obligations.AttachSetsOneSlot : Prop :=
  ∀ (s : State) (key : Byte) (h : HandlerId), ∃ t, exec (.attach key h) s = .next t ∧
    t = { s with T := t.T, out := Outputs.nothing } ∧
    (∀ j, slot t j = if j = key then some h else slot s j) ∧
    exec (.attach key h) t = .next t

/-- R121: DETACH, on a full and on an empty slot; after a DETACH of a class a complete message of it changes nothing
the host sees and leaves the decoder idle. -/
def Obligations.DetachClearsOneSlot : Prop :=
  (∀ (s : State) (key : Byte), ∃ t, exec (.detach key) s = .next t ∧
    t = { s with T := t.T, out := Outputs.nothing } ∧
    (∀ j, slot t j = if j = key then none else slot s j) ∧
    (slot s key = none → t.T = s.T)) ∧
  (∀ (s : State) (c : Nibble) (d1 d2 : Data7), mode s.P = .idle → ∃ t,
    runOps [.detach 0x90, .analogMessage c, .data d1, .data d2] s =
      some (t, [Outputs.nothing, Outputs.nothing, Outputs.nothing, Outputs.nothing]) ∧
    mode t.P = .idle ∧ t.DC = s.DC)

/-- R125: no wire byte writes the registry, SYSTEM_RESET among them; of the instructions only ATTACH and DETACH do. -/
def Obligations.RegistryWrittenOnlyByAttachDetach : Prop :=
  ∀ (s t : State) (i : Instr), exec i s = .next t →
    (∀ key h, i ≠ .attach key h) → (∀ key, i ≠ .detach key) → t.T = s.T

/-- R54: a completion reads the registry at the completing step, so an ATTACH or a DETACH between the command byte and
the last data byte takes effect for that message. -/
def Obligations.RegistryReadAtCompletion : Prop :=
  ∀ (s : State) (k : Byte) (d1 d2 : Data7) (h : HandlerId), s.cfg.cmds.Conforming →
    k ∈ s.cfg.cmds.fixedClasses → s.P.active = some k →
    (s.P.pending = 1 →
      (∃ t v, runOps [.attach k h, .data d1] s = some (t,
        [Outputs.nothing, { Outputs.nothing with event := .call h k s.P.channel v }])) ∧
      (∃ t, runOps [.detach k, .data d1] s = some (t, [Outputs.nothing, Outputs.nothing]))) ∧
    (s.P.pending = 2 →
      (∃ t v, runOps [.attach k h, .data d1, .data d2] s = some (t,
        [Outputs.nothing, Outputs.nothing,
          { Outputs.nothing with event := .call h k s.P.channel v }])) ∧
      (∃ t, runOps [.detach k, .data d1, .data d2] s = some (t,
        [Outputs.nothing, Outputs.nothing, Outputs.nothing])))

/-- 41_callback_registry.md (R123) and 92_eei_decisions.md D11: the slots other than the five dispatched ones have no
effect on any instruction. -/
def Obligations.OnlyDispatchedSlotsMatter : Prop :=
  ∀ (s t : State) (T' : Vector (Option HandlerId) 256) (i : Instr), Inv s →
    (∀ k ∈ s.cfg.cmds.fixedClasses, slot { s with T := T' } k = slot s k) → exec i s = .next t →
    ∃ t', exec i { s with T := T' } = .next t' ∧ t' = { t with T := t'.T } ∧
      ∀ k ∈ s.cfg.cmds.fixedClasses, slot t' k = slot t k

/-- 41_callback_registry.md (R126): the block only stores, compares with NONE and copies handlers, so renaming them
before an instruction or after it is the same. It holds whatever the open type of handlers is (log entry 4). -/
def Obligations.HandlersAreOpaque : Prop :=
  ∀ (f : HandlerId → HandlerId) (s t : State) (i : Instr), exec i s = .next t →
    exec (renameInstr f i) (renameState f s) = .next (renameState f t)

/-! ### The encoder -/

/-- R130: ENC_ANALOG, with the bytes by their numbers. -/
def Obligations.EncAnalogBytes : Prop :=
  ∀ (s : State) (pin : Byte) (value : Value14), ∃ b0 b1 b2 : Byte,
    b0.toNat = 0x90 + pin.toNat % 16 ∧ b1.toNat = value.toNat % 128 ∧ b2.toNat = value.toNat / 128 ∧
    b1.toNat < 128 ∧ b2.toNat < 128 ∧
    exec (.encAnalog pin value) s = .next { s with out := { Outputs.nothing with tx := [b0, b1, b2] } }

/-- R131: ENC_DIGITAL, with the bytes by their numbers, on the constant that the decoder of the instance reads (R9); R8
gives it as 0xA0. -/
def Obligations.EncDigitalBytes : Prop :=
  Config.default.cmds.digitalMessage = 0xA0 ∧
  ∀ (s : State) (port : Byte) (value : Value14), s.cfg.cmds.Conforming → ∃ b0 b1 b2 : Byte,
    b0.toNat = s.cfg.cmds.digitalMessage.toNat + port.toNat % 16 ∧
    b1.toNat = value.toNat % 128 ∧ b2.toNat = value.toNat / 128 ∧
    b1.toNat < 128 ∧ b2.toNat < 128 ∧
    exec (.encDigital port value) s = .next { s with out := { Outputs.nothing with tx := [b0, b1, b2] } }

/-- R132: ENC_EXTENDED, for every command byte and payload, unchecked. -/
def Obligations.EncExtendedBytes : Prop :=
  ∀ (s : State) (cmd : Byte) (payload : List Byte), ∃ t,
    exec (.encExtended cmd payload) s = .next t ∧
    t = { s with out := { Outputs.nothing with tx := 0xF0 :: cmd :: (payload ++ [0xF7]) } } ∧
    t.out.tx.length = payload.length + 3

/-- R133: ENC_VERSION, the same bytes as REPORT_VERSION's reply and the announcement of power-on reset. -/
def Obligations.EncVersionBytes : Prop :=
  ∀ s : State, s.cfg.cmds.Conforming →
    exec .encVersion s = .next { s with out := { Outputs.nothing with
      tx := [s.cfg.verMarker, s.cfg.verMinor.setWidth 8, s.cfg.verMajor.setWidth 8] } } ∧
    (∃ t, exec (.feed s.cfg.cmds.reportVersion) s = .next t ∧
      t.out.tx = [s.cfg.verMarker, s.cfg.verMinor.setWidth 8, s.cfg.verMajor.setWidth 8]) ∧
    (s.cfg.announceOnReset = true → (State.resetWith s.cfg).out.tx =
      [s.cfg.verMarker, s.cfg.verMinor.setWidth 8, s.cfg.verMajor.setWidth 8])

/-- 42_frame_encoder.md, the round trip of R135: the three bytes of ENC_ANALOG or ENC_DIGITAL, fed to an idle decoder,
give exactly one event, on the third FEED, with the pin and the value, and leave the decoder idle. The encoder and the
decoder may be two instances with one assignment of the command constants (R9). -/
def Obligations.ValueRoundTrip : Prop :=
  ∀ (e s : State) (i : Instr) (key pin : Byte) (value : Value14) (h : HandlerId),
    e.cfg.cmds = s.cfg.cmds → s.cfg.cmds.Conforming →
    (i = .encAnalog pin value ∧ key = 0x90) ∨
      (i = .encDigital pin value ∧ key = s.cfg.cmds.digitalMessage) →
    pin.toNat < 16 → mode s.P = .idle → slot s key = some h →
    ∃ e' t a, exec i e = .next e' ∧ a.toNat = pin.toNat ∧
      runOps (feeds e'.out.tx) s = some (t, [Outputs.nothing, Outputs.nothing,
        { Outputs.nothing with event := .call h key a value }]) ∧
      mode t.P = .idle

/-- 42_frame_encoder.md, the round trip of R135: the bytes of ENC_EXTENDED with 7-bit clean operands that fit the buffer,
fed to an idle decoder with conforming command constants, give exactly one `Extended` event with the command and the
payload. -/
def Obligations.ExtendedRoundTrip : Prop :=
  ∀ (e s : State) (cmd : Data7) (payload : List Data7), s.cfg.cmds.Conforming →
    mode s.P = .idle → s.S.buf.length = s.cfg.sysexCap → payload.length + 1 ≤ s.cfg.sysexCap →
    ∃ e' t os,
      exec (.encExtended (cmd.setWidth 8) (payload.map (·.setWidth 8))) e = .next e' ∧
      runOps (feeds e'.out.tx) s = some (t, os) ∧
      eventsOf os = [.extended cmd payload] ∧ causesOf os = [] ∧ mode t.P = .idle

/-! ### Diagnostics -/

/-- R140: READ_DIAG returns the counter and changes nothing, so reading twice gives the same value. -/
def Obligations.ReadDiagReturnsCounter : Prop :=
  ∀ s : State, exec .readDiag s = .next { s with out := { Outputs.nothing with result := some s.DC } } ∧
    ∃ t, runOps [.readDiag, .readDiag] s = some (t,
      [{ Outputs.nothing with result := some s.DC }, { Outputs.nothing with result := some s.DC }]) ∧
      t.DC = s.DC

/-- R142: a complete message whose class has no handler is no drop, and discarded sysex data bytes are not counted one
by one: the message is counted once, at its END_SYSEX. -/
def Obligations.MissingHandlerIsNoDrop : Prop :=
  (∀ (s : State) (d : Data7) (k : Byte), s.P.active = some k → mode s.P = .fixed → slot s k = none →
    ∃ t, exec (.data d) s = .next t ∧ t.out = Outputs.nothing ∧ t.DC = s.DC) ∧
  (∀ (s : State) (d : Data7), mode s.P = .sysex →
    ∃ t, exec (.data d) s = .next t ∧ t.out = Outputs.nothing ∧ t.DC = s.DC) ∧
  (∀ s : State, mode s.P = .sysex → s.S.ovf = true →
    ∃ t, exec .endSysex s = .next t ∧ t.out.diag = [.sysexOverflow] ∧ t.DC = s.DC + 1)

/-- 43_diagnostics.md (R144): the counter and the causes feed back into nothing. Two states that differ in `DC` and in
the outputs of the step before give, for every instruction, states that differ in `DC` alone, and the same events, TX
bytes and causes. -/
def Obligations.DiagnosticsNeverFeedBack : Prop :=
  ∀ (s t : State) (i : Instr) (dc : BitVec 16) (o : Outputs), exec i s = .next t →
    ∃ t', exec i { s with DC := dc, out := o } = .next t' ∧
      t' = { t with DC := t'.DC, out := { t.out with result := t'.out.result } } ∧
      t'.DC - dc = t.DC - s.DC ∧ (t'.out.result = t.out.result ∨ i = .readDiag)

/-! ### The whole machine -/

/-- 10_state.md section 1 (R28: no operation reads the parameters as state or writes them), and beyond R28 every step:
that the step which takes a power-on reset keeps them too is the model's choice (log entry 9). -/
def Obligations.ParametersNeverWritten : Prop :=
  (∀ (s t : State) (i : Instr), exec i s = .next t → t.cfg = s.cfg) ∧
  (∀ s t : State, step s = .next t → t.cfg = s.cfg)

/-- 10_state.md section 3 (R35): no entry left from an earlier message, and no earlier channel, is ever read. Two idle
states that differ in `P.channel` and in both buffers put out the same for every sequence of operations. -/
def Obligations.StaleBuffersNeverRead : Prop :=
  ∀ (s : State) (ch : Nibble) (b0 b1 : Data7) (buf : List Data7) (is : List Instr), Inv s → mode s.P = .idle →
    buf.length = s.S.buf.length →
    (runOps is s).map (·.2) =
      (runOps is { s with P := { s.P with channel := ch, buf0 := b0, buf1 := b1 },
                          S := { s.S with buf := buf } }).map (·.2)

/-! ### The command constants -/

/-- 00_scope.md section 4 (R8, R9): an assignment conforms exactly when the five channel-command constants (the first
of them 0x90) are distinct multiples of 0x10 in 0x80..0xE0 and the fourth system constant is a byte from 0xF0 up other
than the three that R9 fixes. The values of R8 conform, and the reset instance has them. -/
def Obligations.ConformingAssignments : Prop :=
  (∀ c : Commands, c.Conforming ↔
    (∀ k ∈ [c.digitalMessage, c.setPinMode, c.reportAnalog, c.reportDigital],
      k.toNat % 16 = 0 ∧ 0x80 ≤ k.toNat ∧ k.toNat ≤ 0xE0 ∧ k ≠ 0x90) ∧
    c.digitalMessage ≠ c.setPinMode ∧ c.digitalMessage ≠ c.reportAnalog ∧ c.digitalMessage ≠ c.reportDigital ∧
    c.setPinMode ≠ c.reportAnalog ∧ c.setPinMode ≠ c.reportDigital ∧ c.reportAnalog ≠ c.reportDigital ∧
    0xF0 ≤ c.reportVersion.toNat ∧
    c.reportVersion ≠ 0xF0 ∧ c.reportVersion ≠ 0xF7 ∧ c.reportVersion ≠ 0xFF) ∧
  State.reset.cfg.cmds = {
    digitalMessage := 0xA0, setPinMode := 0xC0, reportAnalog := 0xD0, reportDigital := 0xE0,
    reportVersion := 0xF9 } ∧
  State.reset.cfg.cmds.Conforming
end

