-- ==== Sys2Proof/Laws/Encoding.lean ====
section
/-! SUPPORT. The decoder's operand checks on numbers that fit, the fields of a command byte, and the command
constants and rows of a conforming assignment. -/

namespace Sys2Proof

@[simp] theorem decodeByte_toNat (b : Byte) : decodeByte b.toNat = .ok b := by
  simp [decodeByte, isByte, b.isLt]

@[simp] theorem decodeValue_toNat (v : Value14) : decodeValue v.toNat = .ok v := by
  simp [decodeValue, isValue14, v.isLt]

@[simp] theorem decodeBytes_toNat (bs : List Byte) : decodeBytes (bs.map BitVec.toNat) = .ok bs := by
  induction bs with
  | nil => rfl
  | cons b bs ih => simp [decodeBytes, ih, Except.map]

/-- A byte operand is accepted exactly when it fits, and as itself. -/
theorem decodeByte_eq_ok_iff (n : Nat) (b : Byte) : decodeByte n = .ok b ↔ b.toNat = n := by
  unfold decodeByte isByte
  constructor
  · intro h
    split at h
    · rename_i hn
      obtain rfl : BitVec.ofNat 8 n = b := by simpa using h
      have : n < 256 := by simpa using hn
      simp only [BitVec.toNat_ofNat]; omega
    · simp at h
  · rintro rfl; simp [b.isLt]

/-- A value operand is accepted exactly when it fits, and as itself. -/
theorem decodeValue_eq_ok_iff (n : Nat) (v : Value14) : decodeValue n = .ok v ↔ v.toNat = n := by
  unfold decodeValue isValue14
  constructor
  · intro h
    split at h
    · rename_i hn
      obtain rfl : BitVec.ofNat 14 n = v := by simpa using h
      have : n < 16384 := by simpa using hn
      simp only [BitVec.toNat_ofNat]; omega
    · simp at h
  · rintro rfl; simp [v.isLt]

@[simp] theorem decodeHandler_code (h : HandlerId) : decodeHandler h.code = .ok h := by
  simp [decodeHandler, h.isCode]

/-- A handler operand is accepted exactly when it is a code, and as that handler. -/
theorem decodeHandler_eq_ok_iff (n : Nat) (h : HandlerId) : decodeHandler n = .ok h ↔ h.code = n := by
  constructor
  · unfold decodeHandler
    split
    · rintro ⟨⟩; rfl
    · simp
  · rintro rfl; simp

/-- A data byte's payload survives the byte (R63, R69). -/
@[simp] theorem dataOf_setWidth (d : Data7) : dataOf (d.setWidth 8) = d := by revert d; decide

/-- A channel command byte keeps its channel and its class (R61, R68). -/
theorem channelByte_fields : ∀ (k : Fin 16) (c : Nibble),
    channelOf (channelByte (BitVec.ofNat 8 (16 * k)) c) = c ∧
    classOf (channelByte (BitVec.ofNat 8 (16 * k)) c) = BitVec.ofNat 8 (16 * k) := by decide

/-- The two data bytes of a value are 7-bit clean, and are its remainder and quotient by 128 (R69). -/
theorem toNat_lowByte (v : Value14) : (lowByte v).toNat = v.toNat % 128 := by
  have h := v.isLt
  simp only [lowByte, BitVec.toNat_setWidth, BitVec.toNat_and]
  rw [show (127 : Value14).toNat = 2 ^ 7 - 1 from rfl, Nat.and_two_pow_sub_one_eq_mod]
  omega

theorem toNat_highByte (v : Value14) : (highByte v).toNat = v.toNat / 128 := by
  have h := v.isLt
  simp only [highByte, BitVec.toNat_setWidth, BitVec.toNat_ushiftRight, Nat.shiftRight_eq_div_pow]
  omega

/-! ### The command constants of a conforming assignment (R9) -/

/-- What is not in a list `used` and the list itself make up the whole. -/
theorem perm_used_append_rest {all used : List Byte} (ha : all.Nodup) (hu : used.Nodup)
    (h : ∀ k ∈ used, k ∈ all) : (used ++ all.filter fun k => !used.contains k).Perm all := by
  refine (List.perm_ext_iff_of_nodup ?_ ha).2 fun k => ?_
  · refine hu.append (ha.filter _) fun k hk hr => ?_
    simp [hk] at hr
  · by_cases hk : k ∈ used <;> simp [hk, h]

/-- Where exactly two of the seven classes are unassigned, the two rows that no command uses name them. -/
theorem perm_unassigned {c : Commands} (hlen : (channelConstants.filter fun k => !c.fixedClasses.contains k).length = 2) :
    [c.class80, c.classB0].Perm (channelConstants.filter fun k => !c.fixedClasses.contains k) := by
  have h90 : c.fixedClasses.contains 0x90 = true := by
    simp [Commands.fixedClasses, Commands.twoByteClasses, Cmd.analogMessage]
  revert hlen
  simp only [Commands.class80, Commands.classB0, Commands.freedClasses, channelConstants, List.filter_cons, h90,
    List.filter_nil]
  generalize c.fixedClasses.contains 0x80 = b80
  generalize c.fixedClasses.contains 0xA0 = bA0
  generalize c.fixedClasses.contains 0xB0 = bB0
  generalize c.fixedClasses.contains 0xC0 = bC0
  generalize c.fixedClasses.contains 0xD0 = bD0
  generalize c.fixedClasses.contains 0xE0 = bE0
  revert b80 bA0 bB0 bC0 bD0 bE0
  decide

/-- The five classes in use and those of the two rows that no command uses are the seven classes. -/
theorem perm_classes {c : Commands} (hc : c.Conforming) :
    (c.fixedClasses ++ [c.class80, c.classB0]).Perm channelConstants := by
  have h := perm_used_append_rest (all := channelConstants) (by decide) hc.2.1 hc.1
  have hlen := h.length_eq
  exact (List.Perm.append_left _ (perm_unassigned (by
    simp only [List.length_append, show c.fixedClasses.length = 5 from rfl,
      show channelConstants.length = 7 from rfl] at hlen
    omega))).trans h

/-- The system bytes that are no command in R8's assignment (R73). -/
def unassignedSystem : List Byte := [0xF1, 0xF2, 0xF3, 0xF4, 0xF5, 0xF6, 0xF8, 0xFA, 0xFB, 0xFC, 0xFD, 0xFE]

/-- The four system commands and the bytes of the twelve other system rows are the sixteen system bytes. -/
theorem perm_system {c : Commands} (hc : c.Conforming) :
    (c.systemCommands ++ unassignedSystem.map c.systemRow).Perm systemConstants := by
  have h : ∀ v ∈ systemConstants, [0xF0, 0xF7, v, 0xFF].Nodup →
      ([0xF0, 0xF7, v, 0xFF] ++ unassignedSystem.map fun own => if own = v then 0xF9 else own).Perm
        systemConstants := by decide
  exact h _ (hc.2.2.1 _ (by simp [Commands.systemCommands])) hc.2.2.2

/-- The patterns of the channel rows are the seven classes. -/
theorem channelRows_patterns {c : Commands} (hc : c.Conforming) :
    ((channelRows c).map (·.pattern)).Perm channelConstants := perm_classes hc

/-- The patterns of the system rows are the sixteen system bytes. -/
theorem systemRows_patterns {c : Commands} (hc : c.Conforming) :
    ((systemRows c).map (·.pattern)).Perm systemConstants := perm_system hc

/-- A channel row matches a byte by its class. -/
theorem matches_of_mem_channelRows {c : Commands} {r : WireRow} (hr : r ∈ channelRows c) (b : Byte) :
    r.matches b = (r.pattern == classOf b) := by
  have hm : r.mask = 0xF0 := by
    simp only [channelRows, List.mem_cons, List.not_mem_nil, or_false] at hr
    rcases hr with h | h | h | h | h | h | h <;> rw [h]
  rw [WireRow.matches, hm, Bool.beq_comm]; rfl

/-- A system row matches the one byte of its pattern. -/
theorem matches_of_mem_systemRows {c : Commands} {r : WireRow} (hr : r ∈ systemRows c) (b : Byte) :
    r.matches b = (r.pattern == b) := by
  have hm : r.mask = 0xFF := by
    simp only [systemRows, List.mem_cons, List.not_mem_nil, or_false] at hr
    rcases hr with h | h | h | h | h | h | h | h | h | h | h | h | h | h | h | h <;> rw [h]
  rw [WireRow.matches, hm, Bool.beq_comm, show b &&& 0xFF = b from by revert b; decide]

/-- Where the patterns are distinct, one row at most has a given pattern. -/
theorem filter_pattern_eq {rows : List WireRow} (hn : (rows.map (·.pattern)).Nodup) {r : WireRow} (hr : r ∈ rows) :
    rows.filter (fun q => q.pattern == r.pattern) = [r] := by
  induction rows with
  | nil => simp at hr
  | cons q rest ih =>
    rw [List.map_cons, List.nodup_cons] at hn
    have hne : ∀ p ∈ rest, p.pattern ≠ q.pattern := fun p hp he =>
      hn.1 (he ▸ List.mem_map_of_mem hp)
    rcases List.mem_cons.1 hr with rfl | hr
    · simpa [List.filter_cons, List.filter_eq_nil_iff] using hne
    · simp [(hne r hr).symm, ih hn.2 hr]

/-- Each byte is a data byte, or its class is one of the seven, or it is one of the sixteen system bytes
(R60 to R62). -/
theorem byte_kinds : ∀ b : Byte,
    (b &&& 0x80 = 0 ∧ classOf b ∉ channelConstants ∧ b ∉ systemConstants) ∨
    (b &&& 0x80 ≠ 0 ∧ classOf b ∈ channelConstants ∧ b ∉ systemConstants) ∨
    (b &&& 0x80 ≠ 0 ∧ classOf b ∉ channelConstants ∧ b ∈ systemConstants) := by decide

end Sys2Proof
end

