-- ==== Sys2Proof/Laws/State.lean ====
section
/-! SUPPORT. What each unconditional operation makes of each field of the state. -/

namespace Sys2Proof.Machine

/-! ### beginStep -/

@[simp] theorem beginStep_cfg (s : State) : (beginStep s).cfg = s.cfg := rfl
@[simp] theorem beginStep_P (s : State) : (beginStep s).P = s.P := rfl
@[simp] theorem beginStep_S (s : State) : (beginStep s).S = s.S := rfl
@[simp] theorem beginStep_T (s : State) : (beginStep s).T = s.T := rfl
@[simp] theorem beginStep_DC (s : State) : (beginStep s).DC = s.DC := rfl
@[simp] theorem beginStep_out (s : State) : (beginStep s).out = Outputs.nothing := rfl
@[simp] theorem beginStep_inbox (s : State) : (beginStep s).inbox = s.inbox := rfl

/-! ### emitEvent -/

@[simp] theorem emitEvent_cfg (e : Event) (s : State) : (emitEvent e s).cfg = s.cfg := rfl
@[simp] theorem emitEvent_P (e : Event) (s : State) : (emitEvent e s).P = s.P := rfl
@[simp] theorem emitEvent_S (e : Event) (s : State) : (emitEvent e s).S = s.S := rfl
@[simp] theorem emitEvent_T (e : Event) (s : State) : (emitEvent e s).T = s.T := rfl
@[simp] theorem emitEvent_DC (e : Event) (s : State) : (emitEvent e s).DC = s.DC := rfl
@[simp] theorem emitEvent_out (e : Event) (s : State) : (emitEvent e s).out = { s.out with event := e } := rfl
@[simp] theorem emitEvent_inbox (e : Event) (s : State) : (emitEvent e s).inbox = s.inbox := rfl

/-! ### emitTx -/

@[simp] theorem emitTx_cfg (bytes : List Byte) (s : State) : (emitTx bytes s).cfg = s.cfg := rfl
@[simp] theorem emitTx_P (bytes : List Byte) (s : State) : (emitTx bytes s).P = s.P := rfl
@[simp] theorem emitTx_S (bytes : List Byte) (s : State) : (emitTx bytes s).S = s.S := rfl
@[simp] theorem emitTx_T (bytes : List Byte) (s : State) : (emitTx bytes s).T = s.T := rfl
@[simp] theorem emitTx_DC (bytes : List Byte) (s : State) : (emitTx bytes s).DC = s.DC := rfl
@[simp] theorem emitTx_out (bytes : List Byte) (s : State) :
    (emitTx bytes s).out = { s.out with tx := s.out.tx ++ bytes } := rfl
@[simp] theorem emitTx_inbox (bytes : List Byte) (s : State) : (emitTx bytes s).inbox = s.inbox := rfl

/-! ### emitResult -/

@[simp] theorem emitResult_cfg (v : BitVec 16) (s : State) : (emitResult v s).cfg = s.cfg := rfl
@[simp] theorem emitResult_P (v : BitVec 16) (s : State) : (emitResult v s).P = s.P := rfl
@[simp] theorem emitResult_S (v : BitVec 16) (s : State) : (emitResult v s).S = s.S := rfl
@[simp] theorem emitResult_T (v : BitVec 16) (s : State) : (emitResult v s).T = s.T := rfl
@[simp] theorem emitResult_DC (v : BitVec 16) (s : State) : (emitResult v s).DC = s.DC := rfl
@[simp] theorem emitResult_out (v : BitVec 16) (s : State) :
    (emitResult v s).out = { s.out with result := some v } := rfl
@[simp] theorem emitResult_inbox (v : BitVec 16) (s : State) : (emitResult v s).inbox = s.inbox := rfl

/-! ### drop -/

@[simp] theorem drop_cfg (c : DropCause) (s : State) : (drop c s).cfg = s.cfg := rfl
@[simp] theorem drop_P (c : DropCause) (s : State) : (drop c s).P = s.P := rfl
@[simp] theorem drop_S (c : DropCause) (s : State) : (drop c s).S = s.S := rfl
@[simp] theorem drop_T (c : DropCause) (s : State) : (drop c s).T = s.T := rfl
@[simp] theorem drop_DC (c : DropCause) (s : State) : (drop c s).DC = s.DC + 1 := rfl
@[simp] theorem drop_out (c : DropCause) (s : State) :
    (drop c s).out = { s.out with diag := s.out.diag ++ [c] } := rfl
@[simp] theorem drop_inbox (c : DropCause) (s : State) : (drop c s).inbox = s.inbox := rfl

/-! ### announce -/

@[simp] theorem announce_cfg (s : State) : (announce s).cfg = s.cfg := rfl
@[simp] theorem announce_P (s : State) : (announce s).P = s.P := rfl
@[simp] theorem announce_S (s : State) : (announce s).S = s.S := rfl
@[simp] theorem announce_T (s : State) : (announce s).T = s.T := rfl
@[simp] theorem announce_DC (s : State) : (announce s).DC = s.DC := rfl
@[simp] theorem announce_out (s : State) :
    (announce s).out = { s.out with tx := s.out.tx ++ s.cfg.versionBytes } := rfl
@[simp] theorem announce_inbox (s : State) : (announce s).inbox = s.inbox := rfl

/-! ### setSlot -/

@[simp] theorem setSlot_cfg (key : Byte) (h : Option HandlerId) (s : State) :
    (setSlot key h s).cfg = s.cfg := rfl
@[simp] theorem setSlot_P (key : Byte) (h : Option HandlerId) (s : State) : (setSlot key h s).P = s.P := rfl
@[simp] theorem setSlot_S (key : Byte) (h : Option HandlerId) (s : State) : (setSlot key h s).S = s.S := rfl
@[simp] theorem setSlot_T (key : Byte) (h : Option HandlerId) (s : State) :
    (setSlot key h s).T = s.T.set key.toNat h key.isLt := rfl
@[simp] theorem setSlot_DC (key : Byte) (h : Option HandlerId) (s : State) :
    (setSlot key h s).DC = s.DC := rfl
@[simp] theorem setSlot_out (key : Byte) (h : Option HandlerId) (s : State) :
    (setSlot key h s).out = s.out := rfl
@[simp] theorem setSlot_inbox (key : Byte) (h : Option HandlerId) (s : State) :
    (setSlot key h s).inbox = s.inbox := rfl

/-! ### start -/

@[simp] theorem start_cfg (cls : Byte) (ch : Nibble) (n : BitVec 2) (s : State) :
    (start cls ch n s).cfg = s.cfg := rfl
@[simp] theorem start_P (cls : Byte) (ch : Nibble) (n : BitVec 2) (s : State) :
    (start cls ch n s).P = { s.P with pending := n, active := some cls, channel := ch } := rfl
@[simp] theorem start_S (cls : Byte) (ch : Nibble) (n : BitVec 2) (s : State) :
    (start cls ch n s).S = s.S := rfl
@[simp] theorem start_T (cls : Byte) (ch : Nibble) (n : BitVec 2) (s : State) :
    (start cls ch n s).T = s.T := rfl
@[simp] theorem start_DC (cls : Byte) (ch : Nibble) (n : BitVec 2) (s : State) :
    (start cls ch n s).DC = s.DC := rfl
@[simp] theorem start_out (cls : Byte) (ch : Nibble) (n : BitVec 2) (s : State) :
    (start cls ch n s).out = s.out := rfl
@[simp] theorem start_inbox (cls : Byte) (ch : Nibble) (n : BitVec 2) (s : State) :
    (start cls ch n s).inbox = s.inbox := rfl

/-! ### storeFixed -/

@[simp] theorem storeFixed_cfg (d : Data7) (s : State) : (storeFixed d s).cfg = s.cfg := rfl
@[simp] theorem storeFixed_P (d : Data7) (s : State) :
    (storeFixed d s).P = storeBuf (s.P.pending - 1) d { s.P with pending := s.P.pending - 1 } := rfl
@[simp] theorem storeFixed_S (d : Data7) (s : State) : (storeFixed d s).S = s.S := rfl
@[simp] theorem storeFixed_T (d : Data7) (s : State) : (storeFixed d s).T = s.T := rfl
@[simp] theorem storeFixed_DC (d : Data7) (s : State) : (storeFixed d s).DC = s.DC := rfl
@[simp] theorem storeFixed_out (d : Data7) (s : State) : (storeFixed d s).out = s.out := rfl
@[simp] theorem storeFixed_inbox (d : Data7) (s : State) : (storeFixed d s).inbox = s.inbox := rfl

/-! ### beginSysex -/

@[simp] theorem beginSysex_cfg (s : State) : (beginSysex s).cfg = s.cfg := rfl
@[simp] theorem beginSysex_P (s : State) :
    (beginSysex s).P = { s.P with active := some Cmd.startSysex } := rfl
@[simp] theorem beginSysex_S (s : State) : (beginSysex s).S = { s.S with count := 0, ovf := false } := rfl
@[simp] theorem beginSysex_T (s : State) : (beginSysex s).T = s.T := rfl
@[simp] theorem beginSysex_DC (s : State) : (beginSysex s).DC = s.DC := rfl
@[simp] theorem beginSysex_out (s : State) : (beginSysex s).out = s.out := rfl
@[simp] theorem beginSysex_inbox (s : State) : (beginSysex s).inbox = s.inbox := rfl

/-! ### endSysexMessage -/

@[simp] theorem endSysexMessage_cfg (s : State) : (endSysexMessage s).cfg = s.cfg := rfl
@[simp] theorem endSysexMessage_P (s : State) : (endSysexMessage s).P = { s.P with active := none } := rfl
@[simp] theorem endSysexMessage_S (s : State) :
    (endSysexMessage s).S = { s.S with count := 0, ovf := false } := rfl
@[simp] theorem endSysexMessage_T (s : State) : (endSysexMessage s).T = s.T := rfl
@[simp] theorem endSysexMessage_DC (s : State) : (endSysexMessage s).DC = s.DC := rfl
@[simp] theorem endSysexMessage_out (s : State) : (endSysexMessage s).out = s.out := rfl
@[simp] theorem endSysexMessage_inbox (s : State) : (endSysexMessage s).inbox = s.inbox := rfl

/-! ### clearActive -/

@[simp] theorem clearActive_cfg (s : State) : (clearActive s).cfg = s.cfg := rfl
@[simp] theorem clearActive_P (s : State) : (clearActive s).P = { s.P with active := none } := rfl
@[simp] theorem clearActive_S (s : State) : (clearActive s).S = s.S := rfl
@[simp] theorem clearActive_T (s : State) : (clearActive s).T = s.T := rfl
@[simp] theorem clearActive_DC (s : State) : (clearActive s).DC = s.DC := rfl
@[simp] theorem clearActive_out (s : State) : (clearActive s).out = s.out := rfl
@[simp] theorem clearActive_inbox (s : State) : (clearActive s).inbox = s.inbox := rfl

/-! ### clearProgress -/

@[simp] theorem clearProgress_cfg (s : State) : (clearProgress s).cfg = s.cfg := rfl
@[simp] theorem clearProgress_P (s : State) : (clearProgress s).P = { s.P with pending := 0, active := none } := rfl
@[simp] theorem clearProgress_S (s : State) : (clearProgress s).S = { s.S with count := 0, ovf := false } := rfl
@[simp] theorem clearProgress_T (s : State) : (clearProgress s).T = s.T := rfl
@[simp] theorem clearProgress_DC (s : State) : (clearProgress s).DC = s.DC := rfl
@[simp] theorem clearProgress_out (s : State) : (clearProgress s).out = s.out := rfl
@[simp] theorem clearProgress_inbox (s : State) : (clearProgress s).inbox = s.inbox := rfl

/-! ### abort -/

@[simp] theorem abort_cfg (s : State) : (abort s).cfg = s.cfg := rfl
@[simp] theorem abort_P (s : State) : (abort s).P = { s.P with pending := 0, active := none } := rfl
@[simp] theorem abort_S (s : State) : (abort s).S = { s.S with count := 0, ovf := false } := rfl
@[simp] theorem abort_T (s : State) : (abort s).T = s.T := rfl
@[simp] theorem abort_DC (s : State) : (abort s).DC = s.DC + 1 := rfl
@[simp] theorem abort_out (s : State) : (abort s).out = { s.out with diag := s.out.diag ++ [.aborted] } := rfl
@[simp] theorem abort_inbox (s : State) : (abort s).inbox = s.inbox := rfl

/-! ### wireReset -/

@[simp] theorem wireReset_cfg (s : State) : (wireReset s).cfg = s.cfg := rfl
@[simp] theorem wireReset_P (s : State) : (wireReset s).P = Parser.init := rfl
@[simp] theorem wireReset_S (s : State) : (wireReset s).S = Sysex.init s.cfg := rfl
@[simp] theorem wireReset_T (s : State) : (wireReset s).T = s.T := rfl
@[simp] theorem wireReset_DC (s : State) : (wireReset s).DC = s.DC := rfl
@[simp] theorem wireReset_out (s : State) : (wireReset s).out = s.out := rfl
@[simp] theorem wireReset_inbox (s : State) : (wireReset s).inbox = s.inbox := rfl

/-! ### powerOnReset -/

@[simp] theorem powerOnReset_cfg (s : State) : (powerOnReset s).cfg = s.cfg := rfl
@[simp] theorem powerOnReset_P (s : State) : (powerOnReset s).P = Parser.init := rfl
@[simp] theorem powerOnReset_S (s : State) : (powerOnReset s).S = Sysex.init s.cfg := rfl
@[simp] theorem powerOnReset_T (s : State) : (powerOnReset s).T = Vector.replicate 256 none := rfl
@[simp] theorem powerOnReset_DC (s : State) : (powerOnReset s).DC = 0 := rfl
@[simp] theorem powerOnReset_out (s : State) : (powerOnReset s).out = (State.resetWith s.cfg).out := rfl
@[simp] theorem powerOnReset_inbox (s : State) : (powerOnReset s).inbox = s.inbox := rfl

end Sys2Proof.Machine
end

