-- ==== Sys2Proof/Laws/Ops.lean ====
section
/-! SUPPORT. What the operations that decide something can do, once each, for proofs to cite. -/

namespace Sys2Proof.Machine

/-! ### The mode (R24) -/

theorem mode_eq_idle_iff (p : Parser) : mode p = .idle ↔ p.active = none := by
  unfold mode; split <;> simp_all; split <;> simp

theorem mode_eq_sysex_iff (p : Parser) : mode p = .sysex ↔ p.active = some Cmd.startSysex := by
  unfold mode; split <;> simp_all

theorem mode_eq_fixed_iff (p : Parser) :
    mode p = .fixed ↔ ∃ k, p.active = some k ∧ k ≠ Cmd.startSysex := by
  unfold mode; split <;> simp_all

/-- No fixed-payload class of a conforming assignment is START_SYSEX (R9). -/
theorem ne_startSysex_of_mem_fixedClasses {c : Commands} (hc : c.Conforming) {k : Byte}
    (hk : k ∈ c.fixedClasses) : k ≠ Cmd.startSysex := by
  rintro rfl; exact absurd (hc.1 _ hk) (by decide)

theorem mode_eq_fixed_of_active {c : Commands} (hc : c.Conforming) {p : Parser} {k : Byte}
    (h : p.active = some k) (hk : k ∈ c.fixedClasses) : mode p = .fixed :=
  (mode_eq_fixed_iff p).2 ⟨k, h, ne_startSysex_of_mem_fixedClasses hc hk⟩

/-! ### The registry (R25) -/

theorem slot_setSlot (key j : Byte) (h : Option HandlerId) (s : State) :
    slot (setSlot key h s) j = if j = key then h else slot s j := by
  simp only [slot, setSlot_T, Vector.getElem_set, BitVec.toNat_inj, eq_comm (a := key)]

@[simp] theorem slot_setSlot_self (key : Byte) (h : Option HandlerId) (s : State) :
    slot (setSlot key h s) key = h := by simp [slot_setSlot]

@[simp] theorem slot_resetWith (c : Config) (key : Byte) : slot (State.resetWith c) key = none := by
  simp [slot, State.resetWith]

/-- Reading a slot depends on the registry alone. -/
theorem slot_congr {s t : State} (h : s.T = t.T) (key : Byte) : slot s key = slot t key := by
  simp [slot, h]

/-! ### Values (R69, R86, R87) -/

theorem toNat_joinValue (d1 d2 : Data7) : (joinValue d1 d2).toNat = d1.toNat + 128 * d2.toNat := by
  have h1 := d1.isLt
  have h2 := d2.isLt
  have h : joinValue d1 d2 = BitVec.ofNat 14 (d1.toNat + 128 * d2.toNat) := by
    unfold joinValue
    revert d1 d2
    intro d1 d2 h1 h2
    apply BitVec.eq_of_toNat_eq
    simp only [BitVec.toNat_or, BitVec.toNat_setWidth, BitVec.toNat_shiftLeft, BitVec.toNat_ofNat]
    rw [Nat.mod_eq_of_lt (a := d1.toNat) (by omega), Nat.mod_eq_of_lt (a := d2.toNat) (by omega),
      Nat.shiftLeft_eq, Nat.mod_eq_of_lt (by omega), Nat.mod_eq_of_lt (by omega), Nat.or_comm,
      Nat.mul_comm d2.toNat, ← Nat.two_pow_add_eq_or_of_lt (i := 7) (by omega)]
    omega
  rw [h, BitVec.toNat_ofNat]
  omega

theorem toNat_singleValue (d : Data7) : (singleValue d).toNat = d.toNat := by
  have h := d.isLt
  simp only [singleValue, BitVec.toNat_setWidth]
  omega

/-! ### Operations that decide -/

/-- `P.buf[i] <- d` writes one entry at most, and no other register. -/
theorem storeBuf_cases (i : BitVec 2) (d : Data7) (p : Parser) :
    (i = 0 ∧ storeBuf i d p = { p with buf0 := d }) ∨ (i = 1 ∧ storeBuf i d p = { p with buf1 := d }) ∨
    ((i = 2 ∨ i = 3) ∧ storeBuf i d p = p) := by
  obtain rfl | rfl | rfl | rfl : i = 0 ∨ i = 1 ∨ i = 2 ∨ i = 3 := by revert i; decide
  all_goals simp [storeBuf]

/-- The store leaves the awaited count, the class and the channel. -/
theorem storeBuf_frame (i : BitVec 2) (d : Data7) (p : Parser) :
    (storeBuf i d p).pending = p.pending ∧ (storeBuf i d p).active = p.active ∧
    (storeBuf i d p).channel = p.channel := by
  rcases storeBuf_cases i d p with ⟨-, h⟩ | ⟨-, h⟩ | ⟨-, h⟩ <;> simp [h]

/-- Dispatch sets the event output at most (R155). -/
theorem dispatch_eq (k : Byte) (v : Value14) (s : State) (h : s.out.event = .noEvent) :
    dispatch k v s = emitEvent (callEvent (slot s k) k s.P.channel v) s := by
  unfold dispatch callEvent
  split <;> simp_all [emitEvent]
  rw [← h]

/-- A completion in a step that has put out no event yet (R85). -/
theorem completeFixed_eq {s : State} {k : Byte} (hk : s.P.active = some k) (h : s.out.event = .noEvent) :
    completeFixed s =
      { s with
        P := { s.P with active := none }
        out := { s.out with event := callEvent (slot s k) k s.P.channel (payloadValue s.cfg.cmds k s.P) } } := by
  unfold completeFixed
  simp only [hk, dispatch_eq _ _ _ h, emitEvent, clearActive]

/-- A data byte in FIXED mode while more than one is awaited (R82, R83). -/
theorem fixedData_of_not_last {s : State} (d : Data7) (h : s.P.pending ≠ 1) :
    fixedData d s = storeFixed d s := by
  have h' : s.P.pending - 1 ≠ 0 := by revert h; generalize s.P.pending = p; revert p; decide
  unfold fixedData
  exact if_neg (by simpa [(storeBuf_frame _ _ _).1] using h')

/-- The data byte that brings the count to 0 (R82 to R85). -/
theorem fixedData_last {s : State} {k : Byte} (d : Data7) (hk : s.P.active = some k) (hp : s.P.pending = 1)
    (h : s.out.event = .noEvent) :
    fixedData d s =
      { s with
        P := { s.P with pending := 0, active := none, buf0 := d }
        out :=
          { s.out with
            event := callEvent (slot s k) k s.P.channel (payloadValue s.cfg.cmds k { s.P with buf0 := d }) } } := by
  have hs : storeFixed d s = { s with P := { s.P with pending := 0, buf0 := d } } := by
    simp [storeFixed, storeBuf, hp]
  unfold fixedData
  simp only [hs]
  rw [completeFixed_eq (k := k) (by simpa using hk) (by simpa using h)]
  simp [payloadValue, slot]

/-- A data byte in SYSEX mode (R98). -/
theorem sysexData_cases (d : Data7) (s : State) :
    (s.S.count < s.cfg.sysexCap ∧
      sysexData d s = { s with S := { s.S with buf := s.S.buf.set s.S.count d, count := s.S.count + 1 } }) ∨
    (¬ s.S.count < s.cfg.sysexCap ∧ sysexData d s = { s with S := { s.S with ovf := true } }) := by
  unfold sysexData sysexFull
  by_cases h : s.S.count < s.cfg.sysexCap <;> simp [h]

/-- END_SYSEX in SYSEX mode (R99). -/
theorem completeSysex_cases (s : State) :
    (s.S.ovf = true ∧ completeSysex s = endSysexMessage (drop .sysexOverflow s)) ∨
    (s.S.ovf = false ∧ s.S.count = 0 ∧ completeSysex s = endSysexMessage (drop .emptySysex s)) ∨
    (s.S.ovf = false ∧ s.S.count ≠ 0 ∧
      completeSysex s = endSysexMessage (emitEvent (extendedEvent s.S) s)) := by
  unfold completeSysex
  cases h : s.S.ovf <;> by_cases h0 : s.S.count = 0 <;> simp [h0]

/-- The event of a complete extended message, from the bytes stored (R99). -/
theorem extendedEvent_of_take {x : Sysex} {cmd : Data7} {data : List Data7}
    (h : x.buf.take x.count = cmd :: data) : extendedEvent x = .extended cmd data := by
  unfold extendedEvent
  rw [h]
  cases hb : x.buf with
  | nil => simp [hb] at h
  | cons a rest =>
    cases hc : x.count with
    | zero => simp [hc] at h
    | succ n => simp [hb, hc] at h; simp [h.1]

/-- A command byte is classified in the state that R80, R81 and R88 give. -/
theorem commandByte_eq (s : State) : commandByte s = classified s := by
  unfold commandByte abortInProgress classified
  by_cases h : mode s.P = .idle <;> simp [h, abort, clearProgress, drop, beginStep, Outputs.nothing]

/-- A command byte is classified in IDLE mode (R89). -/
theorem mode_classified (s : State) : mode (classified s).P = .idle := by
  unfold classified
  split
  · assumption
  · rfl

theorem classified_of_idle {s : State} (h : mode s.P = .idle) :
    classified s = { s with out := Outputs.nothing } := by simp [classified, h]

@[simp] theorem classified_cfg (s : State) : (classified s).cfg = s.cfg := by
  unfold classified; split <;> rfl

@[simp] theorem classified_T (s : State) : (classified s).T = s.T := by
  unfold classified; split <;> rfl

@[simp] theorem classified_inbox (s : State) : (classified s).inbox = s.inbox := by
  unfold classified; split <;> rfl

@[simp] theorem classified_channel (s : State) : (classified s).P.channel = s.P.channel := by
  unfold classified; split <;> rfl

@[simp] theorem classified_buf0 (s : State) : (classified s).P.buf0 = s.P.buf0 := by
  unfold classified; split <;> rfl

@[simp] theorem classified_buf1 (s : State) : (classified s).P.buf1 = s.P.buf1 := by
  unfold classified; split <;> rfl

@[simp] theorem classified_sysexBuf (s : State) : (classified s).S.buf = s.S.buf := by
  unfold classified; split <;> rfl

@[simp] theorem classified_event (s : State) : (classified s).out.event = .noEvent := by
  unfold classified; split <;> rfl

@[simp] theorem classified_tx (s : State) : (classified s).out.tx = [] := by
  unfold classified; split <;> rfl

@[simp] theorem classified_result (s : State) : (classified s).out.result = none := by
  unfold classified; split <;> rfl

/-- What classification of a byte can do (R89). -/
theorem classifyAndStart_cases (b : Byte) (s : State) :
    (∃ cls ∈ s.cfg.cmds.twoByteClasses, classifyAndStart b s = start cls (channelOf b) 2 s) ∨
    (∃ cls ∈ s.cfg.cmds.oneByteClasses, classifyAndStart b s = start cls (channelOf b) 1 s) ∨
    classifyAndStart b s = wireReset s ∨ classifyAndStart b s = announce s ∨
    classifyAndStart b s = beginSysex s ∨ classifyAndStart b s = drop .unrecognized s := by
  unfold classifyAndStart
  generalize commandClass b = cls
  by_cases h2 : cls ∈ s.cfg.cmds.twoByteClasses
  · exact .inl ⟨cls, h2, by simp [h2]⟩
  by_cases h1 : cls ∈ s.cfg.cmds.oneByteClasses
  · exact .inr (.inl ⟨cls, h1, by simp [h2, h1]⟩)
  simp only [h2, h1, if_false]
  split_ifs <;> simp

end Sys2Proof.Machine
end

