-- ==== Sys2Proof/Laws/Exec.lean ====
section
/-! SUPPORT. What `exec` calls for each instruction, and all that one instruction can do. -/

namespace Sys2Proof.Machine

@[simp] theorem exec_data (d : Data7) (s : State) :
    exec (.data d) s = execData d s := rfl

@[simp] theorem exec_analogMessage (c : Nibble) (s : State) :
    exec (.analogMessage c) s = execAnalogMessage c s := rfl

@[simp] theorem exec_digitalMessage (c : Nibble) (s : State) :
    exec (.digitalMessage c) s = execDigitalMessage c s := rfl

@[simp] theorem exec_setPinMode (c : Nibble) (s : State) :
    exec (.setPinMode c) s = execSetPinMode c s := rfl

@[simp] theorem exec_reportAnalog (c : Nibble) (s : State) :
    exec (.reportAnalog c) s = execReportAnalog c s := rfl

@[simp] theorem exec_reportDigital (c : Nibble) (s : State) :
    exec (.reportDigital c) s = execReportDigital c s := rfl

@[simp] theorem exec_unrecognizedClass80 (c : Nibble) (s : State) :
    exec (.unrecognizedClass80 c) s = execUnrecognizedClass80 c s := rfl

@[simp] theorem exec_unrecognizedClassB0 (c : Nibble) (s : State) :
    exec (.unrecognizedClassB0 c) s = execUnrecognizedClassB0 c s := rfl

@[simp] theorem exec_startSysex (s : State) :
    exec .startSysex s = execStartSysex s := rfl

@[simp] theorem exec_endSysex (s : State) :
    exec .endSysex s = execEndSysex s := rfl

@[simp] theorem exec_reportVersion (s : State) :
    exec .reportVersion s = execReportVersion s := rfl

@[simp] theorem exec_systemReset (s : State) :
    exec .systemReset s = execSystemReset s := rfl

@[simp] theorem exec_unrecognizedF1 (s : State) :
    exec .unrecognizedF1 s = execUnrecognizedF1 s := rfl

@[simp] theorem exec_unrecognizedF2 (s : State) :
    exec .unrecognizedF2 s = execUnrecognizedF2 s := rfl

@[simp] theorem exec_unrecognizedF3 (s : State) :
    exec .unrecognizedF3 s = execUnrecognizedF3 s := rfl

@[simp] theorem exec_unrecognizedF4 (s : State) :
    exec .unrecognizedF4 s = execUnrecognizedF4 s := rfl

@[simp] theorem exec_unrecognizedF5 (s : State) :
    exec .unrecognizedF5 s = execUnrecognizedF5 s := rfl

@[simp] theorem exec_unrecognizedF6 (s : State) :
    exec .unrecognizedF6 s = execUnrecognizedF6 s := rfl

@[simp] theorem exec_unrecognizedF8 (s : State) :
    exec .unrecognizedF8 s = execUnrecognizedF8 s := rfl

@[simp] theorem exec_unrecognizedFA (s : State) :
    exec .unrecognizedFA s = execUnrecognizedFA s := rfl

@[simp] theorem exec_unrecognizedFB (s : State) :
    exec .unrecognizedFB s = execUnrecognizedFB s := rfl

@[simp] theorem exec_unrecognizedFC (s : State) :
    exec .unrecognizedFC s = execUnrecognizedFC s := rfl

@[simp] theorem exec_unrecognizedFD (s : State) :
    exec .unrecognizedFD s = execUnrecognizedFD s := rfl

@[simp] theorem exec_unrecognizedFE (s : State) :
    exec .unrecognizedFE s = execUnrecognizedFE s := rfl

@[simp] theorem exec_feed (b : Byte) (s : State) :
    exec (.feed b) s = execFeed b s := rfl

@[simp] theorem exec_attach (key : Byte) (h : HandlerId) (s : State) :
    exec (.attach key h) s = execAttach key h s := rfl

@[simp] theorem exec_detach (key : Byte) (s : State) :
    exec (.detach key) s = execDetach key s := rfl

@[simp] theorem exec_encAnalog (pin : Byte) (value : Value14) (s : State) :
    exec (.encAnalog pin value) s = execEncAnalog pin value s := rfl

@[simp] theorem exec_encDigital (port : Byte) (value : Value14) (s : State) :
    exec (.encDigital port value) s = execEncDigital port value s := rfl

@[simp] theorem exec_encExtended (cmd : Byte) (payload : List Byte) (s : State) :
    exec (.encExtended cmd payload) s = execEncExtended cmd payload s := rfl

@[simp] theorem exec_encVersion (s : State) :
    exec .encVersion s = execEncVersion s := rfl

@[simp] theorem exec_readDiag (s : State) :
    exec .readDiag s = execReadDiag s := rfl

/-- What an instruction can do to a state, over all instructions: the one place where a proof about every
instruction takes its cases from. -/
inductive Effect (s : State) : State → Prop where
  /-- A data byte in FIXED mode (R82). -/
  | fixedData (d : Data7) (hm : mode s.P = .fixed) : Effect s (fixedData d (beginStep s))
  /-- A data byte in SYSEX mode (R98). -/
  | sysexData (d : Data7) (hm : mode s.P = .sysex) : Effect s (sysexData d (beginStep s))
  /-- END_SYSEX in SYSEX mode (R99). -/
  | completeSysex (hm : mode s.P = .sysex) : Effect s (completeSysex (beginStep s))
  /-- A start of a 2-byte class (R90 to R92). -/
  | start2 (cls : Byte) (hc : cls ∈ s.cfg.cmds.twoByteClasses) (ch : Nibble) : Effect s (start cls ch 2 (classified s))
  /-- A start of a 1-byte class (R93, R94). -/
  | start1 (cls : Byte) (hc : cls ∈ s.cfg.cmds.oneByteClasses) (ch : Nibble) : Effect s (start cls ch 1 (classified s))
  /-- SYSTEM_RESET (R95). -/
  | wireReset : Effect s (wireReset (classified s))
  /-- REPORT_VERSION (R96). -/
  | announce : Effect s (announce (classified s))
  /-- START_SYSEX (R97). -/
  | beginSysex : Effect s (beginSysex (classified s))
  /-- An unrecognized byte (R100 to R102). -/
  | unrecognized : Effect s (drop .unrecognized (classified s))
  /-- ATTACH or DETACH (R120, R121). -/
  | setSlot (key : Byte) (h : Option HandlerId) : Effect s (setSlot key h (beginStep s))
  /-- An encoder operation (R130 to R133). -/
  | emitTx (bytes : List Byte) : Effect s (emitTx bytes (beginStep s))
  /-- READ_DIAG (R140). -/
  | emitResult : Effect s (emitResult s.DC (beginStep s))

/-- A byte classified in the state that R89 wants. -/
theorem effect_classifyAndStart (b : Byte) (s : State) : Effect s (classifyAndStart b (classified s)) := by
  rcases classifyAndStart_cases b (classified s) with ⟨cls, hc, h⟩ | ⟨cls, hc, h⟩ | h | h | h | h <;> rw [h]
  · exact .start2 cls (by simpa using hc) _
  · exact .start1 cls (by simpa using hc) _
  · exact .wireReset
  · exact .announce
  · exact .beginSysex
  · exact .unrecognized

/-- FEED has one of the effects (R80). -/
theorem effect_feed {b : Byte} {s t : State} (h : execFeed b s = .next t) : Effect s t := by
  have hc : mode s.P ≠ .idle → abort (beginStep s) = classified s := fun hm => by
    rw [← commandByte_eq]; unfold commandByte abortInProgress; exact (if_neg (by simpa using hm)).symm
  unfold execFeed feedByte at h
  split at h <;> rename_i hm <;> simp only [beginStep_P] at hm
  · split at h
    · obtain rfl := Host.Outcome.next.inj h; exact .sysexData _ hm
    · split at h
      · obtain rfl := Host.Outcome.next.inj h; exact .completeSysex hm
      · obtain rfl := Host.Outcome.next.inj h; rw [hc (by simp [hm])]; exact effect_classifyAndStart b s
  · split at h
    · obtain rfl := Host.Outcome.next.inj h; exact .fixedData _ hm
    · obtain rfl := Host.Outcome.next.inj h; rw [hc (by simp [hm])]; exact effect_classifyAndStart b s
  · obtain rfl := Host.Outcome.next.inj h
    rw [show beginStep s = classified s from (classified_of_idle hm).symm]
    exact effect_classifyAndStart b s

/-- Every next state of every instruction is one of the effects. -/
theorem effect_exec {i : Instr} {s t : State} (h : exec i s = .next t) : Effect s t := by
  cases i with
  | feed b => exact effect_feed h
  | data d =>
    obtain rfl := Host.Outcome.next.inj h
    split <;> rename_i hm
    · rw [show beginStep s = classified s from (classified_of_idle hm).symm]; exact .unrecognized
    · exact .fixedData d hm
    · exact .sysexData d hm
  | endSysex =>
    obtain rfl := Host.Outcome.next.inj h
    rw [commandByte_eq]
    split <;> rename_i hm
    · exact .completeSysex hm
    all_goals exact .unrecognized
  | analogMessage c | digitalMessage c | setPinMode c =>
    obtain rfl := Host.Outcome.next.inj h
    rw [commandByte_eq]; exact .start2 _ (by simp [Commands.twoByteClasses]) c
  | reportAnalog c | reportDigital c =>
    obtain rfl := Host.Outcome.next.inj h
    rw [commandByte_eq]; exact .start1 _ (by simp [Commands.oneByteClasses]) c
  | startSysex =>
    obtain rfl := Host.Outcome.next.inj h
    rw [commandByte_eq]; exact .beginSysex
  | reportVersion =>
    obtain rfl := Host.Outcome.next.inj h
    rw [commandByte_eq]; exact .announce
  | systemReset =>
    obtain rfl := Host.Outcome.next.inj h
    rw [commandByte_eq]; exact .wireReset
  | attach key _ | detach key =>
    obtain rfl := Host.Outcome.next.inj h
    exact .setSlot key _
  | encAnalog | encDigital | encExtended | encVersion =>
    obtain rfl := Host.Outcome.next.inj h
    exact .emitTx _
  | readDiag =>
    obtain rfl := Host.Outcome.next.inj h
    exact .emitResult
  | _ =>
    obtain rfl := Host.Outcome.next.inj h
    rw [commandByte_eq]; exact .unrecognized

end Sys2Proof.Machine
end

