-- ==== Sys2Proof/Laws/PerInstr.lean ====
section
/-! SUPPORT. The statements made per instruction: every instruction's encoding is one the port admits. -/

namespace Sys2Proof.Laws.EncodeAdmitted

/-- The encoding of an instruction is a well-formed word, whatever the command constants (30_encoding.md R70, R71). -/
def Statement (i : Instr) : Prop := ∀ c : Commands, (encode c i).wellFormed = true

/-- A wire byte is a well-formed word. -/
theorem of_byte (b : Byte) : (wireWord b).wellFormed = true := by
  simp [wireWord, PortWord.wellFormed, isByte, b.isLt]

theorem data (d : Data7) : Statement (.data d) := fun _ => of_byte _

theorem analogMessage (c : Nibble) : Statement (.analogMessage c) := fun _ => of_byte _

theorem digitalMessage (c : Nibble) : Statement (.digitalMessage c) := fun _ => of_byte _

theorem setPinMode (c : Nibble) : Statement (.setPinMode c) := fun _ => of_byte _

theorem reportAnalog (c : Nibble) : Statement (.reportAnalog c) := fun _ => of_byte _

theorem reportDigital (c : Nibble) : Statement (.reportDigital c) := fun _ => of_byte _

theorem unrecognizedClass80 (c : Nibble) : Statement (.unrecognizedClass80 c) := fun _ => of_byte _

theorem unrecognizedClassB0 (c : Nibble) : Statement (.unrecognizedClassB0 c) := fun _ => of_byte _

theorem startSysex : Statement .startSysex := fun _ => of_byte _

theorem endSysex : Statement .endSysex := fun _ => of_byte _

theorem reportVersion : Statement .reportVersion := fun _ => of_byte _

theorem systemReset : Statement .systemReset := fun _ => of_byte _

theorem unrecognizedF1 : Statement .unrecognizedF1 := fun _ => of_byte _

theorem unrecognizedF2 : Statement .unrecognizedF2 := fun _ => of_byte _

theorem unrecognizedF3 : Statement .unrecognizedF3 := fun _ => of_byte _

theorem unrecognizedF4 : Statement .unrecognizedF4 := fun _ => of_byte _

theorem unrecognizedF5 : Statement .unrecognizedF5 := fun _ => of_byte _

theorem unrecognizedF6 : Statement .unrecognizedF6 := fun _ => of_byte _

theorem unrecognizedF8 : Statement .unrecognizedF8 := fun _ => of_byte _

theorem unrecognizedFA : Statement .unrecognizedFA := fun _ => of_byte _

theorem unrecognizedFB : Statement .unrecognizedFB := fun _ => of_byte _

theorem unrecognizedFC : Statement .unrecognizedFC := fun _ => of_byte _

theorem unrecognizedFD : Statement .unrecognizedFD := fun _ => of_byte _

theorem unrecognizedFE : Statement .unrecognizedFE := fun _ => of_byte _

theorem feed (b : Byte) : Statement (.feed b) := by
  simp [Statement, encode, PortWord.wellFormed, isByte, b.isLt]

theorem attach (key : Byte) (h : HandlerId) : Statement (.attach key h) := by
  simp [Statement, encode, PortWord.wellFormed, isByte, key.isLt, h.isCode]

theorem detach (key : Byte) : Statement (.detach key) := by
  simp [Statement, encode, PortWord.wellFormed, isByte, key.isLt]

theorem encAnalog (pin : Byte) (value : Value14) : Statement (.encAnalog pin value) := by
  simp [Statement, encode, PortWord.wellFormed, isByte, isValue14, pin.isLt, value.isLt]

theorem encDigital (port : Byte) (value : Value14) : Statement (.encDigital port value) := by
  simp [Statement, encode, PortWord.wellFormed, isByte, isValue14, port.isLt, value.isLt]

theorem encExtended (cmd : Byte) (payload : List Byte) : Statement (.encExtended cmd payload) := by
  simp [Statement, encode, PortWord.wellFormed, isByte, cmd.isLt]
  exact fun _ b _ => b.isLt

theorem encVersion : Statement .encVersion := fun _ => rfl

theorem readDiag : Statement .readDiag := fun _ => rfl

end Sys2Proof.Laws.EncodeAdmitted
end

