-- ==== Sys2Proof/Laws/Runs.lean ====
section
/-! SUPPORT. Runs of operations, step by step and joined. -/

namespace Sys2Proof.Machine

@[simp] theorem runOps_nil (s : State) : runOps [] s = some (s, []) := rfl

/-- A run whose first operation completes goes on from there. -/
theorem runOps_cons {i : Instr} {rest : List Instr} {s t : State} (h : exec i s = .next t) :
    runOps (i :: rest) s = (runOps rest t).map fun r => (r.1, t.out :: r.2) := by
  simp only [runOps, h]

/-- A run of one operation. -/
theorem runOps_single {i : Instr} {s t : State} (h : exec i s = .next t) :
    runOps [i] s = some (t, [t.out]) := by
  simp [runOps_cons h]

/-- A run of two lists is the run of the first and then of the second. -/
theorem runOps_append {is js : List Instr} {s t u : State} {os ps : List Outputs}
    (h1 : runOps is s = some (t, os)) (h2 : runOps js t = some (u, ps)) :
    runOps (is ++ js) s = some (u, os ++ ps) := by
  induction is generalizing s os with
  | nil =>
    obtain ⟨rfl, rfl⟩ : s = t ∧ [] = os := by simpa using h1
    simpa using h2
  | cons i is ih =>
    simp only [runOps] at h1
    split at h1
    · rename_i s' hs
      cases hr : runOps is s' with
      | none => simp [hr] at h1
      | some r =>
        obtain ⟨rfl, rfl⟩ : r.1 = t ∧ s'.out :: r.2 = os := by simpa [hr] using h1
        rw [List.cons_append, runOps_cons hs, ih (os := r.2) (by rw [hr])]
        rfl
    · simp at h1
    · simp at h1

end Sys2Proof.Machine
end

