-- ==== Sys2Proof/Tests/Slice0.lean ====
section
/-! SUPPORT. The model's own tests: what the word check refuses, words written out from the encoding tables, the vectors
of spec/95_test_vectors.md one step at a time, and a witness for the hypotheses of each statement. -/

open Sys2Proof Sys2Proof.Machine

namespace Sys2Proof.Tests

/-! ### What the word check refuses (R70, R71, R134, R152) -/

theorem test_wellFormed_refuses_wire_256 : (PortWord.wire 256).wellFormed = false := by decide
theorem test_wellFormed_refuses_hop_8 : (PortWord.op 8 []).wellFormed = false := by decide
theorem test_wellFormed_refuses_missing_operand : (PortWord.op 1 [0x90]).wellFormed = false := by decide
theorem test_wellFormed_refuses_extra_operand : (PortWord.op 7 [0]).wellFormed = false := by decide
theorem test_wellFormed_refuses_feed_256 : (PortWord.op 0 [256]).wellFormed = false := by decide
theorem test_wellFormed_refuses_attach_key_256 : (PortWord.op 1 [256, 1]).wellFormed = false := by decide
theorem test_wellFormed_refuses_detach_key_256 : (PortWord.op 2 [256]).wellFormed = false := by decide
theorem test_wellFormed_refuses_pin_256 : (PortWord.op 3 [256, 0]).wellFormed = false := by decide
theorem test_wellFormed_refuses_analog_16384 : (PortWord.op 3 [0, 16384]).wellFormed = false := by decide
theorem test_wellFormed_refuses_port_256 : (PortWord.op 4 [256, 0]).wellFormed = false := by decide
theorem test_wellFormed_refuses_digital_16384 : (PortWord.op 4 [0, 16384]).wellFormed = false := by decide
theorem test_wellFormed_refuses_cmd_256 : (PortWord.op 5 [256]).wellFormed = false := by decide
theorem test_wellFormed_refuses_payload_256 : (PortWord.op 5 [1, 256]).wellFormed = false := by decide

/-- A code that names no handler. Which codes those are is open (log entry 4). -/
theorem test_wellFormed_refuses_handler (n : Nat) (h : isHandlerCode n = false) :
    (PortWord.op 1 [0x90, n]).wellFormed = false := by simp [PortWord.wellFormed, h]

/-- Vector E-14: the refusal of a value above 16383 by name. -/
theorem test_decode_E14 : decode .default (.op 3 [0, 16384]) = .error (.valueTooWide 16384) := by decide

/-- I7: an operation that does not exist is refused by name. -/
theorem test_decode_no_such_operation : decode .default (.op 8 [1]) = .error (.noSuchOperation 8) := by decide

/-! ### One word per row, written out from the encoding column of the table -/

theorem test_decode_data : decode .default (.wire 0b01111111) = .ok (.data 0x7F) := by decide
theorem test_decode_analogMessage : decode .default (.wire 0b10011111) = .ok (.analogMessage 15) := by decide
theorem test_decode_digitalMessage : decode .default (.wire 0b10100010) = .ok (.digitalMessage 2) := by decide
theorem test_decode_setPinMode : decode .default (.wire 0b11000001) = .ok (.setPinMode 1) := by decide
theorem test_decode_reportAnalog : decode .default (.wire 0b11010100) = .ok (.reportAnalog 4) := by decide
theorem test_decode_reportDigital : decode .default (.wire 0b11101111) = .ok (.reportDigital 15) := by decide
theorem test_decode_class80 : decode .default (.wire 0b10000101) = .ok (.unrecognizedClass80 5) := by decide
theorem test_decode_classB0 : decode .default (.wire 0b10110011) = .ok (.unrecognizedClassB0 3) := by decide
theorem test_decode_startSysex : decode .default (.wire 0b11110000) = .ok .startSysex := by decide
theorem test_decode_endSysex : decode .default (.wire 0b11110111) = .ok .endSysex := by decide
theorem test_decode_reportVersion : decode .default (.wire 0b11111001) = .ok .reportVersion := by decide
theorem test_decode_systemReset : decode .default (.wire 0b11111111) = .ok .systemReset := by decide
theorem test_decode_F1 : decode .default (.wire 0b11110001) = .ok .unrecognizedF1 := by decide
theorem test_decode_F2 : decode .default (.wire 0b11110010) = .ok .unrecognizedF2 := by decide
theorem test_decode_F3 : decode .default (.wire 0b11110011) = .ok .unrecognizedF3 := by decide
theorem test_decode_F4 : decode .default (.wire 0b11110100) = .ok .unrecognizedF4 := by decide
theorem test_decode_F5 : decode .default (.wire 0b11110101) = .ok .unrecognizedF5 := by decide
theorem test_decode_F6 : decode .default (.wire 0b11110110) = .ok .unrecognizedF6 := by decide
theorem test_decode_F8 : decode .default (.wire 0b11111000) = .ok .unrecognizedF8 := by decide
theorem test_decode_FA : decode .default (.wire 0b11111010) = .ok .unrecognizedFA := by decide
theorem test_decode_FB : decode .default (.wire 0b11111011) = .ok .unrecognizedFB := by decide
theorem test_decode_FC : decode .default (.wire 0b11111100) = .ok .unrecognizedFC := by decide
theorem test_decode_FD : decode .default (.wire 0b11111101) = .ok .unrecognizedFD := by decide
theorem test_decode_FE : decode .default (.wire 0b11111110) = .ok .unrecognizedFE := by decide
/-- Program P1, line 3: `(0, 0x93)`. -/
theorem test_decode_feed : decode .default (.op 0b000 [0x93]) = .ok (.feed 0x93) := by decide
/-- Program P1, line 1: `(1, 0x90, hA)`. -/
theorem test_decode_attach : decode .default (.op 0b001 [0x90, 0]) = .ok (.attach 0x90 .first) := by decide
/-- Program P4, line 5: `(2, 0xA0)`. -/
theorem test_decode_detach : decode .default (.op 0b010 [0xA0]) = .ok (.detach 0xA0) := by decide
/-- Program P1, line 2: `(3, 0x03, 133)`. -/
theorem test_decode_encAnalog : decode .default (.op 0b011 [0x03, 133]) = .ok (.encAnalog 3 133) := by decide
/-- Program P2, line 5: `(4, 0x02, 3)`. -/
theorem test_decode_encDigital : decode .default (.op 0b100 [0x02, 3]) = .ok (.encDigital 2 3) := by decide
/-- Vector E-9's operation. -/
theorem test_decode_encExtended : decode .default (.op 0b101 [0x01, 10, 20, 30]) = .ok (.encExtended 1 [10, 20, 30]) := by
  decide
/-- Program P4, line 8: `(6)`. -/
theorem test_decode_encVersion : decode .default (.op 0b110 []) = .ok .encVersion := by decide
/-- Program P1, line 6: `(7)`. -/
theorem test_decode_readDiag : decode .default (.op 0b111 []) = .ok .readDiag := by decide

/-- The table word of a host-operation row is its HOP, and of a wire row its byte (log entry 3). -/
theorem test_table_words : decodeTableWord 8 0x3 = some (.encAnalog 0 0) ∧
    decodeTableWord 8 0x90 = some (.analogMessage 0) ∧ decodeTableWord 8 256 = none := by decide

/-- Section 1.2 of the vectors, as a listing (R75): `SYSEX 0x01, 10, 20, 30`. -/
theorem test_listing_sysex : (Listing.sysex 1 [10, 20, 30]).bytes .default = [0xF0, 0x01, 0x0A, 0x14, 0x1E, 0xF7] := by
  decide

/-- Row 1.9: `SETPINMODE 5, 129` is the stream of vector D-11. -/
theorem test_listing_setPinMode : (Listing.setPinMode 5 129).bytes .default = [0xC5, 0x01, 0x01] := by decide

/-! ### Another assignment that R9 calls conforming -/

/-- An assignment that uses the classes of both unassigned rows, and the byte of a third row. -/
def otherCmds : Commands :=
  { digitalMessage := 0x80, setPinMode := 0xB0, reportAnalog := 0xE0, reportDigital := 0xA0, reportVersion := 0xF1 }

/-- Every command is read at its constant, and the rows whose bytes are used name the bytes set free (log entry 7). -/
theorem test_decode_otherCmds :
    decode otherCmds (.wire 0x85) = .ok (.digitalMessage 5) ∧
    decode otherCmds (.wire 0xA2) = .ok (.reportDigital 2) ∧
    decode otherCmds (.wire 0xF1) = .ok .reportVersion ∧
    decode otherCmds (.wire 0xC1) = .ok (.unrecognizedClass80 1) ∧
    decode otherCmds (.wire 0xDF) = .ok (.unrecognizedClassB0 15) ∧
    decode otherCmds (.wire 0xF9) = .ok .unrecognizedF1 ∧
    decode otherCmds (.wire 0xF8) = .ok .unrecognizedF8 := by decide

/-- R9's constraints: a class twice, a class that is ANALOG_MESSAGE's, and a system constant that is END_SYSEX. -/
theorem test_not_conforming : ¬ { otherCmds with setPinMode := 0x80 }.Conforming ∧
    ¬ { otherCmds with setPinMode := 0x90 }.Conforming ∧ ¬ { otherCmds with setPinMode := 0xB1 }.Conforming ∧
    ¬ { otherCmds with reportVersion := 0xF7 }.Conforming := by
  simp only [Commands.Conforming]; decide

/-! ### Small states -/

/-- Parameters for the tests: a sysex buffer of 4 bytes (vectors X-13 and P3), no announcement. -/
def cfg4 : Config :=
  { cmds := .default, sysexCap := 4, verMarker := 0x79, verMinor := 2, verMajor := 5, announceOnReset := false }

/-- The power-on state with given parser registers. -/
def withP (pending : BitVec 2) (active : Option Byte) (channel : Nibble) (buf0 buf1 : Data7) : State :=
  { State.resetWith cfg4 with
    P := { pending := pending, active := active, channel := channel, buf0 := buf0, buf1 := buf1 } }

/-- SYSEX mode with given sysex registers. -/
def inSysex (count : Nat) (ovf : Bool) (buf : List Data7) : State :=
  { withP 0 (some 0xF0) 3 0 0 with S := { count := count, ovf := ovf, buf := buf } }

/-- The state S0 of the vectors in the slot that matters: a handler for one class. -/
def handled (key : Byte) (h : HandlerId) (s : State) : State :=
  { s with T := s.T.set key.toNat (some h) key.isLt }

/-- The middle of an analog message on channel 3, one data byte to come (vector D-2). -/
def midAnalog : State := withP 1 (some 0x90) 3 0 5

/-- The middle of a sysex message `[F0 01 0A` (R98's example). -/
def midSysex : State := inSysex 2 false [1, 10, 0, 0]

/-- What can be compared cheaply of an outcome: the registers but the registry, and the outputs. -/
def seen (o : Host.Outcome State Fault Refusal) : Option (Parser × Sysex × BitVec 16 × Outputs) :=
  match o with
  | .next s => some (s.P, s.S, s.DC, s.out)
  | .fault _ => none
  | .refused _ => none

/-- The parser registers after an instruction. -/
def parserOf (o : Host.Outcome State Fault Refusal) : Option Parser := (seen o).map (·.1)

/-- The outputs of an instruction. -/
def outOf (o : Host.Outcome State Fault Refusal) : Option Outputs := (seen o).map (·.2.2.2)

/-- The sysex registers after an instruction. -/
def sysexOf (o : Host.Outcome State Fault Refusal) : Option Sysex := (seen o).map (·.2.1)

/-- The drop counter after an instruction. -/
def dcOf (o : Host.Outcome State Fault Refusal) : Option (BitVec 16) := (seen o).map (·.2.2.1)

/-! ### Steps from the vectors of spec/95_test_vectors.md -/

/-- D-1. -/
theorem test_D1 : parserOf (exec (.analogMessage 3) (State.resetWith cfg4)) = some ⟨2, some 0x90, 3, 0, 0⟩ := by
  decide

/-- D-2. -/
theorem test_D2 : parserOf (exec (.data 5) (withP 2 (some 0x90) 3 0 0)) = some ⟨1, some 0x90, 3, 0, 5⟩ := by decide

/-- D-3. -/
theorem test_D3 : seen (exec (.data 1) (handled 0x90 .first midAnalog)) =
    some (⟨0, none, 3, 1, 5⟩, ⟨0, false, [0, 0, 0, 0]⟩, 0, ⟨.call .first 0x90 3 133, [], [], none⟩) := by decide

/-- D-5, last step: `[9F 7F 7F]` gives 16383. -/
theorem test_D5 : outOf (exec (.feed 0x7F) (handled 0x90 .first (withP 1 (some 0x90) 15 0 0x7F))) =
    some ⟨.call .first 0x90 15 16383, [], [], none⟩ := by decide

/-- D-9, first step, and its class 0xA0. -/
theorem test_D9 : parserOf (exec (.digitalMessage 1) (withP 0 none 0 0 0)) = some ⟨2, some 0xA0, 1, 0, 0⟩ := by
  decide

/-- D-11, first step. -/
theorem test_D11 : parserOf (exec (.setPinMode 5) (withP 0 none 0 0 0)) = some ⟨2, some 0xC0, 5, 0, 0⟩ := by decide

/-- D-12, both steps. -/
theorem test_D12 : parserOf (exec (.reportAnalog 4) (withP 0 none 0 0 0)) = some ⟨1, some 0xD0, 4, 0, 0⟩ ∧
    outOf (exec (.data 1) (handled 0xD0 .first (withP 1 (some 0xD0) 4 0 0))) =
      some ⟨.call .first 0xD0 4 1, [], [], none⟩ := by decide

/-- D-15, both steps. -/
theorem test_D15 : parserOf (exec (.reportDigital 3) (withP 0 none 0 0 0)) = some ⟨1, some 0xE0, 3, 0, 0⟩ ∧
    outOf (exec (.data 0x7F) (handled 0xE0 .first (withP 1 (some 0xE0) 3 0 0))) =
      some ⟨.call .first 0xE0 3 127, [], [], none⟩ := by decide

/-- D-16: no handler, no output, and the decoder idle. -/
theorem test_D16 : seen (exec (.data 1) midAnalog) =
    some (⟨0, none, 3, 1, 5⟩, ⟨0, false, [0, 0, 0, 0]⟩, 0, ⟨.noEvent, [], [], none⟩) := by decide

/-- D-20, third step. -/
theorem test_D20 : seen (exec (.reportAnalog 2) midAnalog) =
    some (⟨1, some 0xD0, 2, 0, 5⟩, ⟨0, false, [0, 0, 0, 0]⟩, 1, ⟨.noEvent, [], [.aborted], none⟩) := by decide

/-- D-21, third step. -/
theorem test_D21 : seen (exec (.unrecognizedClass80 0) midAnalog) =
    some (⟨0, none, 3, 0, 5⟩, ⟨0, false, [0, 0, 0, 0]⟩, 2, ⟨.noEvent, [], [.aborted, .unrecognized], none⟩) := by decide

/-- D-23, third step. -/
theorem test_D23 : seen (exec .systemReset midAnalog) =
    some (Parser.init, ⟨0, false, [0, 0, 0, 0]⟩, 1, ⟨.noEvent, [], [.aborted], none⟩) := by decide

/-- D-24, second step: the reply to a version request in the middle of a message. -/
theorem test_D24 : outOf (exec .reportVersion (withP 2 (some 0x90) 3 0 0)) =
    some ⟨.noEvent, [0x79, 2, 5], [.aborted], none⟩ := by decide

/-- D-25, third step. -/
theorem test_D25 : outOf (exec .endSysex midAnalog) = some ⟨.noEvent, [], [.aborted, .unrecognized], none⟩ := by decide

/-- D-33, fourth step. -/
theorem test_D33 : seen (exec .systemReset (inSysex 2 false [1, 2, 0, 0])) =
    some (Parser.init, ⟨0, false, [0, 0, 0, 0]⟩, 1, ⟨.noEvent, [], [.aborted], none⟩) := by decide

/-- D-40 and D-49: the channel is not written. -/
theorem test_D49 : parserOf (exec (.feed 0x85) (withP 0 none 10 0 0)) = some ⟨0, none, 10, 0, 0⟩ := by decide

/-- D-41. -/
theorem test_D41 : outOf (exec (.unrecognizedClassB0 3) (withP 0 none 0 0 0)) =
    some ⟨.noEvent, [], [.unrecognized], none⟩ := by decide

/-- D-42: a data byte in IDLE mode. -/
theorem test_D42 : outOf (exec (.data 0x42) (withP 0 none 0 0 0)) =
    some ⟨.noEvent, [], [.unrecognized], none⟩ := by decide

/-- D-45, and the other unassigned system bytes in the same way (R101). -/
theorem test_D45 : ∀ i ∈ [Instr.unrecognizedF1, .unrecognizedF2, .unrecognizedF3, .unrecognizedF4, .unrecognizedF5,
      .unrecognizedF6, .unrecognizedF8, .unrecognizedFA, .unrecognizedFB, .unrecognizedFC, .unrecognizedFD,
      .unrecognizedFE], dcOf (exec i (withP 0 none 0 0 0)) = some 1 := by decide

/-- X-1, third and sixth steps of its register trace. -/
theorem test_X1 : sysexOf (exec (.data 0x0A) (inSysex 1 false [1, 0, 0, 0])) = some ⟨2, false, [1, 10, 0, 0]⟩ ∧
    seen (exec .endSysex (inSysex 4 false [1, 10, 20, 30])) =
      some (⟨0, none, 3, 0, 0⟩, ⟨0, false, [1, 10, 20, 30]⟩, 0, ⟨.extended 1 [10, 20, 30], [], [], none⟩) := by decide

/-- X-2, second step. -/
theorem test_X2 : outOf (exec .endSysex (inSysex 0 false [0, 0, 0, 0])) =
    some ⟨.noEvent, [], [.emptySysex], none⟩ := by decide

/-- X-9, third step: START_SYSEX inside a sysex message. -/
theorem test_X9 : seen (exec .startSysex (inSysex 1 false [1, 0, 0, 0])) =
    some (⟨0, some 0xF0, 3, 0, 0⟩, ⟨0, false, [1, 0, 0, 0]⟩, 1, ⟨.noEvent, [], [.aborted], none⟩) := by decide

/-- Program P3, line 3: the sixth FEED sets the overflow flag, the seventh discards the message. -/
theorem test_P3_overflow : sysexOf (exec (.feed 4) (inSysex 4 false [2, 1, 2, 3])) = some ⟨4, true, [2, 1, 2, 3]⟩ ∧
    outOf (exec (.feed 0xF7) (inSysex 4 true [2, 1, 2, 3])) = some ⟨.noEvent, [], [.sysexOverflow], none⟩ := by decide

/-- REG-1: the handler is replaced, whichever the two are. -/
theorem test_REG1 (hA hB : HandlerId) : (match exec (.attach 0x90 hB) (handled 0x90 hA midAnalog) with
    | .next s => slot s 0x90
    | _ => none) = some hB := rfl

/-- REG-2: the slot is emptied. -/
theorem test_REG2 : (match exec (.detach 0x90) (handled 0x90 .first midAnalog) with
    | .next s => slot s 0x90
    | _ => some .first) = none := by decide

/-- REG-3: the lookup is at the class, not at the command byte. -/
theorem test_REG3 : outOf (exec (.data 1) (handled 0x93 .first midAnalog)) = some Outputs.nothing := by decide

/-- E-1 and E-4. -/
theorem test_E1_E4 : outOf (exec (.encAnalog 3 133) midAnalog) = some ⟨.noEvent, [0x93, 0x05, 0x01], [], none⟩ ∧
    outOf (exec (.encAnalog 0x13 1) midAnalog) = some ⟨.noEvent, [0x93, 0x01, 0x00], [], none⟩ := by decide

/-- E-6 and E-8. -/
theorem test_E6_E8 : outOf (exec (.encDigital 1 0x2AAA) midAnalog) = some ⟨.noEvent, [0xA1, 0x2A, 0x55], [], none⟩ ∧
    outOf (exec (.encDigital 0x1F 5) midAnalog) = some ⟨.noEvent, [0xAF, 0x05, 0x00], [], none⟩ := by decide

/-- R9: with another assignment the encoder and FEED read the same constant. -/
theorem test_otherCmds_both_directions :
    outOf (exec (.encDigital 1 0x2AAA) (State.resetWith { cfg4 with cmds := otherCmds })) =
      some ⟨.noEvent, [0x81, 0x2A, 0x55], [], none⟩ ∧
    parserOf (exec (.feed 0x81) (State.resetWith { cfg4 with cmds := otherCmds })) =
      some ⟨2, some 0x80, 1, 0, 0⟩ := by decide

/-- E-9 and E-12. -/
theorem test_E9_E12 :
    outOf (exec (.encExtended 1 [10, 20, 30]) midAnalog) =
      some ⟨.noEvent, [0xF0, 0x01, 0x0A, 0x14, 0x1E, 0xF7], [], none⟩ ∧
    outOf (exec (.encExtended 0x90 [1]) midAnalog) = some ⟨.noEvent, [0xF0, 0x90, 0x01, 0xF7], [], none⟩ := by decide

/-- E-13. -/
theorem test_E13 : outOf (exec .encVersion midAnalog) = some ⟨.noEvent, [0x79, 2, 5], [], none⟩ := by decide

/-- G-1, the first READ_DIAG: it returns 2 and leaves 2. -/
theorem test_G1 : seen (exec .readDiag { withP 0 none 0 0 0 with DC := 2 }) =
    some (Parser.init, ⟨0, false, [0, 0, 0, 0]⟩, 2, ⟨.noEvent, [], [], some 2⟩) := by decide

/-- G-2: the counter wraps. -/
theorem test_G2 : dcOf (exec (.feed 0x85) { withP 0 none 0 0 0 with DC := 0xFFFF }) = some 0 := by decide

/-- G-5 and G-6: the announcement of power-on reset depends on the parameter. -/
theorem test_G5_G6 : (State.resetWith { cfg4 with announceOnReset := true }).out.tx = [0x79, 2, 5] ∧
    (State.resetWith cfg4).out.tx = [] := by decide

/-- An operation put at the port of the reset state is the first step. -/
theorem test_first_step : seen (step (State.reset.withFetchWord 8 0x90)) =
    seen (exec (.analogMessage 0) State.reset) := rfl

/-- With nothing at the port there is no step. -/
theorem test_no_operation : step State.reset = .refused .noOperation := rfl

/-! ### Witnesses: states and operands that meet the hypotheses of each statement -/

/-- The hypothesis of every statement that asks for conforming command constants, DecodeEncode, FeedRunsWireByte,
ListingsDecodeToTheirMessages and EachByteMatchesOneRow among them: those of R8, of the test state, and others. -/
theorem witness_Conforming : Commands.default.Conforming ∧ otherCmds.Conforming := by
  simp only [Commands.Conforming]; decide

/-- The command constants of every test state. -/
theorem conforming : cfg4.cmds.Conforming := witness_Conforming.1

theorem witness_PowerOnLeavesInitialState : State.reset = State.resetWith Config.default ∧
    decode .default (.wire 0x93) = .ok (.analogMessage 3) := ⟨rfl, by decide⟩

theorem witness_PowerOnInputResets : { midAnalog with inbox := [.powerOn, .powerOn] }.inbox = [.powerOn, .powerOn] := rfl

theorem witness_ResetMeetsInvariant : cfg4.legal ∧ Config.default.legal :=
  ⟨⟨by decide, conforming⟩, ⟨by decide, conforming⟩⟩

/-- The middle of an analog message meets the invariant. -/
theorem inv_midAnalog : Inv midAnalog where
  cfgLegal := ⟨by decide, conforming⟩
  pendingLe := by decide
  pendingIff := ⟨fun _ => ⟨0x90, by decide, rfl⟩, fun _ => by decide⟩
  activeLegal k h := by
    obtain rfl : 0x90 = k := by simpa [midAnalog, withP] using h
    exact .inl (by decide)
  payloadLe k _ h := by
    obtain rfl : 0x90 = k := by simpa [midAnalog, withP] using h
    decide
  countLe := by decide
  sysexClear := fun _ => ⟨rfl, rfl⟩
  bufLength := rfl

theorem inv_idle : Inv (withP 0 none 0 0 0) where
  cfgLegal := ⟨by decide, conforming⟩
  pendingLe := by decide
  pendingIff := ⟨fun h => absurd h (by decide), fun ⟨_, _, h⟩ => by simp [withP] at h⟩
  activeLegal := by rintro k h; simp [withP] at h
  payloadLe := by rintro k - h; simp [withP] at h
  countLe := by decide
  sysexClear := fun _ => ⟨rfl, rfl⟩
  bufLength := rfl

theorem witness_StepKeepsInvariant : Inv midAnalog ∧
    ∃ t, step (midAnalog.withFetchWord 8 0xD2) = .next t := ⟨inv_midAnalog, _, rfl⟩

theorem witness_DecodeEncode : otherCmds.Conforming := witness_Conforming.2

theorem witness_DecodeAcceptsExactlyWellFormed : otherCmds.Conforming := witness_Conforming.2

theorem witness_EachByteMatchesOneRow : otherCmds.Conforming := witness_Conforming.2

theorem witness_ListingsDecodeToTheirMessages : otherCmds.Conforming := witness_Conforming.2

theorem witness_FeedRunsWireByte : midAnalog.cfg.cmds.Conforming := conforming

theorem witness_TwoByteMessageClasses : midAnalog.cfg.cmds.Conforming ∧
    (0xA0 : Byte) = midAnalog.cfg.cmds.digitalMessage :=
  ⟨conforming, by decide⟩

theorem witness_OneByteMessageClasses : midAnalog.cfg.cmds.Conforming ∧
    (0xE0 : Byte) = midAnalog.cfg.cmds.reportDigital :=
  ⟨conforming, by decide⟩

theorem witness_WireResetKeepsCounterAndRegistry : midAnalog.cfg.cmds.Conforming := conforming

theorem witness_EncDigitalBytes : midAnalog.cfg.cmds.Conforming := conforming

theorem witness_EncodeDecode : Commands.default.Conforming ∧ decode .default (.op 5 [1, 2]) = .ok (.encExtended 1 [2]) :=
  ⟨conforming, by decide⟩

/-- Both clauses, at the boundary of the value and of the pin. -/
theorem witness_EncoderValueAbove16383Refused :
    (∃ s : State, s.inbox = .word (.op 3 [255, 16384]) :: [] ∧ 16383 < 16384) ∧
    (∃ s : State, s.inbox = .word (.op 4 [255, 16383]) :: [] ∧ ¬ 16383 < 16383) :=
  ⟨⟨{ midAnalog with inbox := [.word (.op 3 [255, 16384])] }, rfl, by decide⟩,
    ⟨{ midAnalog with inbox := [.word (.op 4 [255, 16383])] }, rfl, by decide⟩⟩

theorem witness_StepRunsDecoded : (midAnalog.withFetchWord 8 0x93).inbox = .word (.wire 0x93) :: [] ∧
    decode .default (.wire 0x93) = .ok (.analogMessage 3) := ⟨rfl, by decide⟩

/-- Both ways to a refusal. -/
theorem witness_RefusedOnlyWithoutOperation : midAnalog.cfg.cmds.Conforming ∧ step midAnalog = .refused .noOperation ∧
    step (midAnalog.withFetchWord 16 256) = .refused (.rejected (.operandByte 256)) :=
  ⟨conforming, rfl, rfl⟩

theorem witness_StepsRunInIssueOrder : midAnalog.cfg.cmds.Conforming ∧
    ∃ t os, runOps [.feed 0x93, .readDiag] midAnalog = some (t, os) := ⟨conforming, _, _, rfl⟩

/-- FIXED mode with 2 and with 1 data bytes to come. -/
theorem witness_DataStoredAtDecrementedCount :
    (mode (withP 2 (some 0x90) 3 0 0).P = .fixed ∧ (withP 2 (some 0x90) 3 0 0).P.pending = 2) ∧
    (mode midAnalog.P = .fixed ∧ midAnalog.P.pending = 1) := by decide

/-- A class with a 2-byte payload and one with a 1-byte payload. -/
theorem witness_LastDataByteDispatches : midAnalog.cfg.cmds.Conforming ∧
    (0x90 ∈ Commands.default.fixedClasses ∧ midAnalog.P.active = some 0x90 ∧ midAnalog.P.pending = 1) ∧
    (0xE0 ∈ Commands.default.fixedClasses ∧ (withP 1 (some 0xE0) 3 0 0).P.active = some 0xE0 ∧
      (withP 1 (some 0xE0) 3 0 0).P.pending = 1) :=
  ⟨conforming, by decide⟩

theorem witness_IdleDataByteDropped : mode (withP 0 none 10 0 0).P = .idle := by decide

/-- FIXED and SYSEX mode, at the lowest command byte. -/
theorem witness_CommandByteAbortsMessage :
    (0x80 ≤ (0x80 : Byte).toNat ∧ mode midAnalog.P = .fixed) ∧
    (mode midSysex.P = .sysex ∧ (0x80 : Byte) ≠ 0xF7) := by decide

theorem witness_PartialMessagePersists :
    (∀ i ∈ [Instr.encAnalog 1 2, .readDiag], isOtherHostOp i = true) ∧
    (∀ key h, Instr.attach key h ∉ [Instr.encAnalog 1 2, .readDiag]) ∧
    (∀ key, Instr.detach key ∉ [Instr.encAnalog 1 2, .readDiag]) := by simp [isOtherHostOp]

/-- Room for one more byte, and none (the boundary of R98). -/
theorem witness_SysexDataStored :
    (mode (inSysex 3 false [1, 2, 3, 0]).P = .sysex ∧ (inSysex 3 false [1, 2, 3, 0]).S.buf.length = cfg4.sysexCap ∧
      (inSysex 3 false [1, 2, 3, 0]).S.count < cfg4.sysexCap) ∧
    (mode (inSysex 4 false [1, 2, 3, 4]).P = .sysex ∧
      ¬ (inSysex 4 false [1, 2, 3, 4]).S.count < cfg4.sysexCap) := by decide

/-- Overflow, no command byte, and a message that fills the buffer. -/
theorem witness_EndSysexCompletes :
    (mode (inSysex 4 true [2, 1, 2, 3]).P = .sysex ∧ (inSysex 4 true [2, 1, 2, 3]).S.ovf = true) ∧
    (mode (inSysex 0 false [0, 0, 0, 0]).P = .sysex ∧ (inSysex 0 false [0, 0, 0, 0]).S.count = 0) ∧
    ((inSysex 4 false [1, 10, 20, 30]).S.ovf = false ∧
      (inSysex 4 false [1, 10, 20, 30]).S.count = [(10 : Data7), 20, 30].length + 1 ∧
      (inSysex 4 false [1, 10, 20, 30]).S.buf.take 4 = 1 :: [10, 20, 30]) := by decide

theorem witness_EndSysexOutsideSysexDropped : mode midAnalog.P ≠ .sysex ∧ mode State.reset.P ≠ .sysex := by decide

theorem witness_OversizedSysexDroppedOnce : mode (withP 0 none 0 0 0).P = .idle ∧
    (withP 0 none 0 0 0).cfg.sysexCap < [(1 : Data7), 2, 3, 4, 5].length := by decide

theorem witness_UnassignedCommandDropped : Instr.unrecognizedFE ∈
    [Instr.unrecognizedClass80 1, .unrecognizedClassB0 1, .unrecognizedF1, .unrecognizedF2, .unrecognizedF3,
      .unrecognizedF4, .unrecognizedF5, .unrecognizedF6, .unrecognizedF8, .unrecognizedFA, .unrecognizedFB,
      .unrecognizedFC, .unrecognizedFD, .unrecognizedFE] ∧
    (Instr.endSysex = .endSysex ∧ mode midAnalog.P ≠ .sysex) := by decide

/-- A step with two causes, one with an event and one with the version bytes. -/
theorem witness_FeedOutputsBounded : midAnalog.cfg.cmds.Conforming ∧
    outOf (exec (.feed 0x80) midAnalog) = some ⟨.noEvent, [], [.aborted, .unrecognized], none⟩ ∧
    outOf (exec (.feed 1) (handled 0x90 .first midAnalog)) = some ⟨.call .first 0x90 3 133, [], [], none⟩ ∧
    outOf (exec (.feed 0xF9) midAnalog) = some ⟨.noEvent, [0x79, 2, 5], [.aborted], none⟩ :=
  ⟨conforming, by decide⟩

theorem witness_DropsExactlyAccounted : midAnalog.cfg.cmds.Conforming ∧ isOtherHostOp .readDiag = true ∧
    ∃ t, exec .readDiag midAnalog = .next t := ⟨conforming, rfl, _, rfl⟩

/-- A system command, and an operation that feeds no byte. -/
theorem witness_ChannelWrittenOnlyByStarts : midAnalog.cfg.cmds.Conforming ∧
    (∃ t, exec .startSysex midAnalog = .next t) ∧ byteOf .default .startSysex = some 0xF0 ∧
    classOf 0xF0 ∉ Commands.default.fixedClasses ∧ (0xF0 : Byte) ≠ 0xFF ∧ byteOf .default .readDiag = none :=
  ⟨conforming, ⟨_, rfl⟩, by decide, by decide, by decide, by decide⟩

/-- A command byte in FIXED mode, and a data byte in SYSEX mode, which may write only the sysex buffer. -/
theorem witness_BuffersWrittenOnlyByDataBytes : midAnalog.cfg.cmds.Conforming ∧
    (byteOf .default (.analogMessage 0) = some 0x90 ∧ 0x80 ≤ (0x90 : Byte).toNat ∧ mode midAnalog.P = .fixed) ∧
    (byteOf .default (.data 7) = some 7 ∧ mode midSysex.P ≠ .fixed ∧ (some 7 : Option Byte) ≠ some 0xFF) :=
  ⟨conforming, by decide⟩

theorem witness_DetachClearsOneSlot : slot (State.resetWith cfg4) 0x55 = none ∧
    mode (State.resetWith cfg4).P = .idle := by decide

theorem witness_RegistryWrittenOnlyByAttachDetach : (∃ t, exec .systemReset midAnalog = .next t) ∧
    (∀ key h, Instr.systemReset ≠ .attach key h) ∧ (∀ key, Instr.systemReset ≠ .detach key) :=
  ⟨⟨_, rfl⟩, by simp, by simp⟩

/-- One and two data bytes to come. -/
theorem witness_RegistryReadAtCompletion : midAnalog.cfg.cmds.Conforming ∧
    (0x90 ∈ Commands.default.fixedClasses ∧ midAnalog.P.active = some 0x90 ∧ midAnalog.P.pending = 1) ∧
    ((withP 2 (some 0xC0) 5 0 0).P.active = some 0xC0 ∧ (withP 2 (some 0xC0) 5 0 0).P.pending = 2) :=
  ⟨conforming, by decide⟩

theorem witness_OnlyDispatchedSlotsMatter : Inv midAnalog ∧
    (∀ k ∈ Commands.default.fixedClasses, slot { midAnalog with T := (handled 0x55 .first midAnalog).T } k = slot midAnalog k) ∧
    ∃ t, exec (.data 1) midAnalog = .next t := ⟨inv_midAnalog, by decide, _, rfl⟩

theorem witness_HandlersAreOpaque : ∃ t, exec (.data 1) (handled 0x90 .first midAnalog) = .next t := ⟨_, rfl⟩

/-- Both encoders, at the highest pin. -/
theorem witness_ValueRoundTrip : midAnalog.cfg.cmds = (State.resetWith cfg4).cfg.cmds ∧
    (State.resetWith cfg4).cfg.cmds.Conforming ∧ (15 : Byte).toNat < 16 ∧
    mode (handled 0x90 .first (State.resetWith cfg4)).P = .idle ∧
    slot (handled 0x90 .first (State.resetWith cfg4)) 0x90 = some .first ∧
    slot (handled 0xA0 .first (State.resetWith cfg4)) 0xA0 = some .first :=
  ⟨rfl, conforming, by decide⟩

/-- A payload that fills the buffer. -/
theorem witness_ExtendedRoundTrip : (State.resetWith cfg4).cfg.cmds.Conforming ∧
    mode (State.resetWith cfg4).P = .idle ∧
    (State.resetWith cfg4).S.buf.length = cfg4.sysexCap ∧ [(10 : Data7), 20, 30].length + 1 ≤ cfg4.sysexCap :=
  ⟨conforming, by decide⟩

theorem witness_EncVersionBytes : cfg4.cmds.Conforming ∧ { cfg4 with announceOnReset := true }.announceOnReset = true :=
  ⟨conforming, by decide⟩

/-- FIXED mode without a handler, SYSEX mode, and SYSEX mode after an overflow. -/
theorem witness_MissingHandlerIsNoDrop :
    (midAnalog.P.active = some 0x90 ∧ mode midAnalog.P = .fixed ∧ slot midAnalog 0x90 = none) ∧
    mode midSysex.P = .sysex ∧
    (mode (inSysex 4 true [2, 1, 2, 3]).P = .sysex ∧ (inSysex 4 true [2, 1, 2, 3]).S.ovf = true) := by decide

theorem witness_DiagnosticsNeverFeedBack : ∃ t, exec .readDiag midAnalog = .next t := ⟨_, rfl⟩

theorem witness_ParametersNeverWritten : (∃ t, exec .startSysex midAnalog = .next t) ∧
    ∃ t, step (midAnalog.withFetchWord 8 0x07) = .next t := ⟨⟨_, rfl⟩, ⟨_, rfl⟩⟩

theorem witness_StaleBuffersNeverRead : Inv (withP 0 none 0 0 0) ∧ mode (withP 0 none 0 0 0).P = .idle ∧
    [(9 : Data7), 8, 7, 6].length = (withP 0 none 0 0 0).S.buf.length := ⟨inv_idle, by decide, by decide⟩

end Sys2Proof.Tests
end

/-! PROOFS. Data bytes of a fixed-payload message, and the registry that its completion reads (R54). -/

namespace Sys2Proof.Machine

/-! ### Data bytes in FIXED mode, as steps -/

/-- The first data byte of a 2-byte payload is stored as the second entry, and puts nothing out (R82, R83). -/
theorem exec_data_first {s : State} (d : Data7) (hm : mode s.P = .fixed) (hp : s.P.pending = 2) :
    exec (.data d) s =
      .next { s with P := { s.P with pending := 1, buf1 := d }, out := Outputs.nothing } := by
  have hnot : (beginStep s).P.pending ≠ 1 := by simp [hp]
  simp only [exec_data, execData, hm, fixedData_of_not_last d hnot]
  simp [storeFixed, storeBuf, beginStep, hp]

/-- The last data byte completes the message: it calls what the slot of the class now holds (R82 to R85). -/
theorem exec_data_last {s : State} {k : Byte} (d : Data7) (hm : mode s.P = .fixed)
    (hk : s.P.active = some k) (hp : s.P.pending = 1) :
    exec (.data d) s =
      .next { s with
        P := { s.P with pending := 0, active := none, buf0 := d }
        out :=
          { Outputs.nothing with
            event := callEvent (slot s k) k s.P.channel (payloadValue s.cfg.cmds k { s.P with buf0 := d }) } } := by
  simp only [exec_data, execData, hm]
  rw [fixedData_last d (s := beginStep s) hk hp rfl]
  rfl

/-! ### The rest of a message, as a run -/

/-- With one data byte to come, that byte's step puts out the call and nothing else. -/
theorem runOps_last_data {s : State} {k : Byte} (d : Data7) (hm : mode s.P = .fixed)
    (hk : s.P.active = some k) (hp : s.P.pending = 1) :
    ∃ t v, runOps [.data d] s =
      some (t, [{ Outputs.nothing with event := callEvent (slot s k) k s.P.channel v }]) :=
  ⟨_, _, runOps_single (exec_data_last d hm hk hp)⟩

/-- With two data bytes to come, the first step puts out nothing and the second the call. -/
theorem runOps_last_two_data {s : State} {k : Byte} (d1 d2 : Data7) (hm : mode s.P = .fixed)
    (hk : s.P.active = some k) (hp : s.P.pending = 2) :
    ∃ t v, runOps [.data d1, .data d2] s =
      some (t, [Outputs.nothing, { Outputs.nothing with event := callEvent (slot s k) k s.P.channel v }]) := by
  have hfirst := exec_data_first d1 hm hp
  obtain ⟨t, v, hlast⟩ := runOps_last_data d2 hm hk rfl
    (s := { s with P := { s.P with pending := 1, buf1 := d1 }, out := Outputs.nothing })
  exact ⟨t, v, runOps_append (runOps_single hfirst) hlast⟩

/-! ### The registry is read at the completing step (R54) -/

/-- One data byte to come: the completion reads what the operation before it wrote to the slot. -/
theorem runOps_setSlot_last_data {i : Instr} {s : State} {k : Byte} {o : Option HandlerId} (d : Data7)
    (hi : exec i s = .next (setSlot k o (beginStep s))) (hm : mode s.P = .fixed)
    (hk : s.P.active = some k) (hp : s.P.pending = 1) :
    ∃ t v, runOps [i, .data d] s =
      some (t, [Outputs.nothing, { Outputs.nothing with event := callEvent o k s.P.channel v }]) := by
  obtain ⟨t, v, hrun⟩ := runOps_last_data (s := setSlot k o (beginStep s)) d hm hk hp
  rw [slot_setSlot_self] at hrun
  exact ⟨t, v, runOps_append (runOps_single hi) hrun⟩

/-- Two data bytes to come: the completion reads what the operation before them wrote to the slot. -/
theorem runOps_setSlot_last_two_data {i : Instr} {s : State} {k : Byte} {o : Option HandlerId}
    (d1 d2 : Data7) (hi : exec i s = .next (setSlot k o (beginStep s))) (hm : mode s.P = .fixed)
    (hk : s.P.active = some k) (hp : s.P.pending = 2) :
    ∃ t v, runOps [i, .data d1, .data d2] s =
      some (t, [Outputs.nothing, Outputs.nothing,
        { Outputs.nothing with event := callEvent o k s.P.channel v }]) := by
  obtain ⟨t, v, hrun⟩ := runOps_last_two_data (s := setSlot k o (beginStep s)) d1 d2 hm hk hp
  rw [slot_setSlot_self] at hrun
  exact ⟨t, v, runOps_append (runOps_single hi) hrun⟩

/-- Settles O40: ATTACH and DETACH are the two writes of the slot, of a handler and of `NONE`, and a completion
reads the slot as they left it. -/
theorem registryReadAtCompletion : Obligations.RegistryReadAtCompletion := by
  unfold Obligations.RegistryReadAtCompletion
  intro s k d1 d2 h hc hmem hk
  have hm : mode s.P = .fixed := mode_eq_fixed_of_active hc hk hmem
  have hattach : exec (.attach k h) s = .next (setSlot k (some h) (beginStep s)) := rfl
  have hdetach : exec (.detach k) s = .next (setSlot k none (beginStep s)) := rfl
  refine ⟨fun hp => ⟨?_, ?_⟩, fun hp => ⟨?_, ?_⟩⟩
  · exact runOps_setSlot_last_data d1 hattach hm hk hp
  · obtain ⟨t, _, hrun⟩ := runOps_setSlot_last_data d1 hdetach hm hk hp
    exact ⟨t, hrun⟩
  · exact runOps_setSlot_last_two_data d1 d2 hattach hm hk hp
  · obtain ⟨t, _, hrun⟩ := runOps_setSlot_last_two_data d1 d2 hdetach hm hk hp
    exact ⟨t, hrun⟩

end Sys2Proof.Machine

/-! PROOFS. The frame decoder (40_frame_decoder.md): command bytes, fixed-payload messages from start to call,
extended messages, and what stands between the bytes of a message. -/

namespace Sys2Proof

/-! ### The bytes of a channel command (R61, R72) -/

/-- A class plus a channel is the command byte that has both as its fields (R61, R64). -/
theorem channelByte_of_class : ∀ k ∈ channelConstants, ∀ ch : Nibble,
    (channelByte k ch).toNat = k.toNat + ch.toNat ∧ classOf (channelByte k ch) = k ∧
    channelOf (channelByte k ch) = ch := by decide

/-- A byte with the class of a channel row decodes by that row (R72). -/
theorem decodeWire_of_mem_channelRows {c : Commands} (hc : c.Conforming) {r : WireRow} (hr : r ∈ channelRows c)
    {b : Byte} (hb : classOf b = r.pattern) : decodeWire c b = .ok (r.build b) := by
  have hpat := channelRows_patterns hc
  have hclass : r.pattern ∈ channelConstants := hpat.subset (List.mem_map_of_mem hr)
  have hdata : dataRow.matches b = false := by
    rcases byte_kinds b with ⟨-, h, -⟩ | ⟨h, -, -⟩ | ⟨-, h, -⟩
    · exact absurd (hb ▸ hclass) h
    · simpa [WireRow.matches, dataRow] using h
    · exact absurd (hb ▸ hclass) h
  have honly : (channelRows c).filter (fun q => q.matches b) = [r] := by
    rw [List.filter_congr fun q hq => matches_of_mem_channelRows hq b, hb]
    exact filter_pattern_eq (hpat.nodup_iff.2 (by decide)) hr
  have hfind : (wireTable c).find? (fun q => q.matches b) = some r := by
    simp [wireTable, hdata, ← List.head?_filter, honly]
  rw [decodeWire, hfind]

/-- The class of a channel row plus a channel decodes to the row's instruction for that channel (R66, R73). -/
theorem decode_class_add_channel {c : Commands} (hc : c.Conforming) {cls : Byte} {mk : Nibble → Instr}
    (hr : ⟨0xF0, cls, fun b => mk (channelOf b)⟩ ∈ channelRows c) (ch : Nibble) :
    decode c (.wire (cls.toNat + ch.toNat)) = .ok (mk ch) := by
  obtain ⟨hnat, hcls, hch⟩ :=
    channelByte_of_class cls ((channelRows_patterns hc).subset (List.mem_map_of_mem hr)) ch
  have hbyte : decodeByte (cls.toNat + ch.toNat) = .ok (channelByte cls ch) :=
    (decodeByte_eq_ok_iff _ _).2 hnat
  calc decode c (.wire (cls.toNat + ch.toNat))
    _ = decodeWire c (channelByte cls ch) := by rw [decode, hbyte]; rfl
    _ = .ok (mk (channelOf (channelByte cls ch))) := decodeWire_of_mem_channelRows hc hr hcls
    _ = .ok (mk ch) := by rw [hch]

end Sys2Proof

namespace Sys2Proof.Machine

/-! ### Command bytes (R88, R95 to R101) -/

/-- Settles O24: START_SYSEX is classified after the abort and then begins its message. -/
theorem startSysexBegins : Obligations.StartSysexBegins := by
  unfold Obligations.StartSysexBegins
  intro s
  simp only [exec_startSysex, execStartSysex, commandByte_eq, beginSysex, classified_sysexBuf]
  rfl

/-- Settles O31: the announcement is added to the TX output of a command byte, which is empty so far. -/
theorem reportVersionReplies : Obligations.ReportVersionReplies := by
  unfold Obligations.ReportVersionReplies
  intro s
  simp only [exec_reportVersion, execReportVersion, commandByte_eq, announce, emitTx, classified_tx,
    classified_cfg, List.nil_append]
  rfl

/-- SYSTEM_RESET resets the parser registers of the state in which it is classified (R95). -/
theorem exec_systemReset_eq (s : State) : exec .systemReset s = .next (wireReset (classified s)) := by
  rw [exec_systemReset, execSystemReset, commandByte_eq]

/-- Settles O29: a wire reset leaves an idle decoder, so a second one aborts nothing and writes what stands there. -/
theorem systemResetResetsParser : Obligations.SystemResetResetsParser := by
  unfold Obligations.SystemResetResetsParser
  intro s
  refine ⟨wireReset (classified s), exec_systemReset_eq s, ?_, ?_⟩
  · simp only [wireReset, classified_cfg]
    rfl
  · have hidle : mode (wireReset (classified s)).P = .idle := rfl
    rw [exec_systemReset_eq, classified_of_idle hidle]
    rfl

/-- END_SYSEX outside SYSEX mode is one more unrecognized command byte (R100). -/
theorem exec_endSysex_of_not_sysex {s : State} (hm : mode s.P ≠ .sysex) :
    exec .endSysex s = .next (unrecognizedAfter (classified s)) := by
  rw [exec_endSysex, execEndSysex, commandByte_eq]
  cases h : mode s.P with
  | sysex => exact absurd h hm
  | idle => rfl
  | fixed => rfl

/-- Settles O27: IDLE and FIXED are the two modes outside SYSEX, and the meaning is one in both. -/
theorem endSysexOutsideSysexDropped : Obligations.EndSysexOutsideSysexDropped := by
  unfold Obligations.EndSysexOutsideSysexDropped
  exact fun _ hm => exec_endSysex_of_not_sysex hm

/-- Settles O32: all fourteen unassigned rows have the one meaning of a dropped command byte. -/
theorem unassignedCommandDropped : Obligations.UnassignedCommandDropped := by
  unfold Obligations.UnassignedCommandDropped
  rintro s c i (hi | ⟨rfl, hm⟩)
  · have hdrop : exec i s = .next (drop .unrecognized (commandByte s)) := by
      simp only [List.mem_cons, List.not_mem_nil, or_false] at hi
      rcases hi with rfl | rfl | rfl | rfl | rfl | rfl | rfl | rfl | rfl | rfl | rfl | rfl | rfl | rfl <;> rfl
    rw [hdrop, commandByte_eq]
    rfl
  · exact exec_endSysex_of_not_sysex hm

/-! ### A command byte in the middle of a message (R88) -/

/-- The state with a cause in front of those its step has recorded so far. -/
def withEarlierCause (c : DropCause) (s : State) : State :=
  { s with out := { s.out with diag := c :: s.out.diag } }

/-- Classification neither reads nor loses the causes recorded before it (R89). -/
theorem classifyAndStart_withEarlierCause (c : DropCause) (b : Byte) (s : State) :
    classifyAndStart b (withEarlierCause c s) = withEarlierCause c (classifyAndStart b s) := by
  have hcfg : (withEarlierCause c s).cfg = s.cfg := rfl
  unfold classifyAndStart
  rw [hcfg]
  split_ifs <;> rfl

/-- A command byte that does not complete the message in progress is classified after an abort (R80, R88). -/
theorem feedByte_of_abort {b : Byte} {s : State} (hb : 0x80 ≤ b.toNat)
    (hm : mode s.P = .fixed ∨ (mode s.P = .sysex ∧ b ≠ 0xF7)) :
    feedByte b s = classifyAndStart b (abort s) := by
  have hcmd : ¬ b < 0x80 := by rw [BitVec.lt_def]; exact Nat.not_lt.2 hb
  unfold feedByte
  rcases hm with hm | ⟨hm, hend⟩
  · simp only [hm, if_neg hcmd]
  · have hne : ¬ b = Cmd.endSysex := hend
    simp only [hm, if_neg hcmd, if_neg hne]

/-- Settles O22: the abort leaves the idle state with ABORTED recorded, which classification carries along. -/
theorem commandByteAbortsMessage : Obligations.CommandByteAbortsMessage := by
  unfold Obligations.CommandByteAbortsMessage
  intro s b hb hm
  refine ⟨_, _, rfl, rfl, ?_⟩
  rw [feedByte_of_abort (s := beginStep s) hb hm]
  exact classifyAndStart_withEarlierCause .aborted b (beginStep { clearProgress s with DC := s.DC + 1 })

/-! ### Data bytes outside FIXED mode (R98, R102) -/

/-- A data byte in IDLE mode is dropped (R102). -/
theorem exec_data_idle {s : State} (d : Data7) (hm : mode s.P = .idle) :
    exec (.data d) s =
      .next { s with DC := s.DC + 1, out := { Outputs.nothing with diag := [.unrecognized] } } := by
  simp only [exec_data, execData, hm]
  rfl

/-- Settles O25: the two cases of a sysex data byte, room for it or none. -/
theorem sysexDataStored : Obligations.SysexDataStored := by
  unfold Obligations.SysexDataStored
  intro s d hm hlen
  have hexec : exec (.data d) s = .next (sysexData d (beginStep s)) := by
    simp only [exec_data, execData, hm]
  rcases sysexData_cases d (beginStep s) with ⟨hroom, hs⟩ | ⟨hfull, hs⟩
  · rw [if_pos (by simpa using hroom)]
    refine ⟨_, hexec, by rw [hs]; rfl, by rw [hs]; simp, fun j => ?_⟩
    have hcount : s.S.count < s.S.buf.length := hlen ▸ hroom
    simp only [hs, beginStep_S, List.getElem?_set, eq_comm (a := j)]
    split_ifs with hj <;> simp_all
  · rw [if_neg (by simpa using hfull), hexec, hs]
    rfl

/-! ### The end of an extended message (R99) -/

/-- Settles O26: the three outcomes of END_SYSEX, each of which rules out the other two. -/
theorem endSysexCompletes : Obligations.EndSysexCompletes := by
  unfold Obligations.EndSysexCompletes
  intro s hm
  have hexec : exec .endSysex s = .next (completeSysex (beginStep s)) := by
    simp only [exec_endSysex, execEndSysex, hm]
  refine ⟨_, hexec, ?_⟩
  rcases completeSysex_cases (beginStep s) with ⟨hovf, hs⟩ | ⟨hovf, h0, hs⟩ | ⟨hovf, h0, hs⟩ <;>
    rw [beginStep_S] at hovf <;> rw [hs]
  · exact ⟨rfl, fun _ => ⟨rfl, rfl⟩, by simp [hovf], by simp [hovf]⟩
  · refine ⟨rfl, by simp [hovf], fun _ _ => ⟨rfl, rfl⟩, fun _ cmd data hcount => ?_⟩
    exact absurd (hcount.symm.trans h0) (Nat.succ_ne_zero _)
  · refine ⟨rfl, by simp [hovf], fun _ hcount => absurd hcount h0, fun _ cmd data _ htake => ?_⟩
    rw [extendedEvent_of_take (x := (beginStep s).S) htake]
    exact ⟨rfl, rfl⟩

/-! ### Data bytes of a fixed-payload message (R83 to R87) -/

/-- A 2-byte class carries both data bytes, the first one least significant (R86). -/
theorem toNat_payloadValue_two {c : Commands} {k : Byte} (hk : k ∈ c.twoByteClasses) (p : Parser) :
    (payloadValue c k p).toNat = p.buf1.toNat + 128 * p.buf0.toNat := by
  rw [payloadValue, if_pos hk, toNat_joinValue]

/-- Any other class carries its one data byte (R87). -/
theorem toNat_payloadValue_one {c : Commands} {k : Byte} (hk : k ∉ c.twoByteClasses) (p : Parser) :
    (payloadValue c k p).toNat = p.buf0.toNat := by
  rw [payloadValue, if_neg hk, toNat_singleValue]

/-- In a conforming assignment no class has both payload lengths (R9). -/
theorem not_mem_twoByteClasses_of_mem_oneByteClasses {c : Commands} (hc : c.Conforming) {k : Byte}
    (hk : k ∈ c.oneByteClasses) : k ∉ c.twoByteClasses := by
  obtain ⟨-, hnodup, -, -⟩ := hc
  exact fun h => List.disjoint_of_nodup_append hnodup h hk

/-- Settles O19: the first data byte awaits another one, the last one finds the class in progress. -/
theorem dataStoredAtDecrementedCount : Obligations.DataStoredAtDecrementedCount := by
  unfold Obligations.DataStoredAtDecrementedCount
  intro s d hm
  obtain ⟨k, hk, -⟩ := (mode_eq_fixed_iff s.P).1 hm
  exact ⟨exec_data_first d hm, fun hp => ⟨_, exec_data_last d hm hk hp, rfl⟩⟩

/-- Settles O20: the value is that of the class's payload length. -/
theorem lastDataByteDispatches : Obligations.LastDataByteDispatches := by
  unfold Obligations.LastDataByteDispatches
  intro s d k hc hmem hk hp
  refine ⟨payloadValue s.cfg.cmds k { s.P with buf0 := d }, ?_,
    exec_data_last d (mode_eq_fixed_of_active hc hk hmem) hk hp⟩
  split_ifs with htwo
  · exact toNat_payloadValue_two htwo _
  · exact toNat_payloadValue_one htwo _

/-! ### Messages from start to call (R90 to R94) -/

/-- A message of class `k` whose first data byte `d1` has come, and whose second has not (R83). -/
def awaitingLast (k : Byte) (ch : Nibble) (d1 : Data7) (s : State) : State :=
  { classified s with
    P := { (classified s).P with pending := 1, active := some k, channel := ch, buf1 := d1 }
    out := Outputs.nothing }

/-- A class that is not START_SYSEX puts the decoder in FIXED mode (R24). -/
theorem mode_start {k : Byte} (hk : k ≠ Cmd.startSysex) (ch : Nibble) (n : BitVec 2) (s : State) :
    mode (start k ch n s).P = .fixed :=
  (mode_eq_fixed_iff _).2 ⟨k, rfl, hk⟩

section
variable {i : Instr} {s : State} {k : Byte} {ch : Nibble}

/-- The command byte and the first data byte of a 2-byte message give no event (R83, R84). -/
theorem runOps_start_data (hi : exec i s = .next (start k ch 2 (classified s))) (hk : k ≠ Cmd.startSysex)
    (d1 : Data7) :
    runOps [i, .data d1] s = some (awaitingLast k ch d1 s, [(classified s).out, Outputs.nothing]) :=
  runOps_append (runOps_single hi) (runOps_single (exec_data_first d1 (mode_start hk ch 2 _) rfl))

/-- A 2-byte message completes across a run of operations that keeps the parser, the parameters and the registry:
the second data byte calls the handler with the value of both. -/
theorem runOps_twoByteMessage_across (hi : exec i s = .next (start k ch 2 (classified s)))
    (hk : k ≠ Cmd.startSysex) (htwo : k ∈ s.cfg.cmds.twoByteClasses) (d1 d2 : Data7)
    {ops : List Instr} {u : State} {os : List Outputs} (hops : runOps ops (awaitingLast k ch d1 s) = some (u, os))
    (hP : u.P = (awaitingLast k ch d1 s).P) (hcfg : u.cfg = s.cfg) (hT : u.T = s.T) :
    ∃ (v : Value14) (t : State),
      v.toNat = d1.toNat + 128 * d2.toNat ∧
      runOps ([i, .data d1] ++ ops ++ [.data d2]) s = some (t,
        [(classified s).out, Outputs.nothing] ++ os ++
          [{ Outputs.nothing with event := callEvent (slot s k) k ch v }]) ∧
      mode t.P = .idle := by
  have hactive : u.P.active = some k := by rw [hP]; rfl
  have hmode : mode u.P = .fixed := (mode_eq_fixed_iff _).2 ⟨k, hactive, hk⟩
  have hpending : u.P.pending = 1 := by rw [hP]; rfl
  have hchannel : u.P.channel = ch := by rw [hP]; rfl
  have hbuf1 : u.P.buf1 = d1 := by rw [hP]; rfl
  have hrun := runOps_append (runOps_append (runOps_start_data hi hk d1) hops)
    (runOps_single (exec_data_last d2 hmode hactive hpending))
  rw [slot_congr hT, hchannel] at hrun
  refine ⟨_, _, ?_, hrun, rfl⟩
  rw [toNat_payloadValue_two (hcfg ▸ htwo), hbuf1]

/-- A 2-byte message whose bytes come one after the other (R84 to R86). -/
theorem runOps_twoByteMessage (hi : exec i s = .next (start k ch 2 (classified s)))
    (hk : k ≠ Cmd.startSysex) (htwo : k ∈ s.cfg.cmds.twoByteClasses) (d1 d2 : Data7) :
    ∃ (v : Value14) (t : State),
      v.toNat = d1.toNat + 128 * d2.toNat ∧
      runOps [i, .data d1, .data d2] s = some (t,
        [(classified s).out, Outputs.nothing,
          { Outputs.nothing with event := callEvent (slot s k) k ch v }]) ∧
      mode t.P = .idle :=
  runOps_twoByteMessage_across hi hk htwo d1 d2 (runOps_nil _) rfl (classified_cfg s) (classified_T s)

/-- A 1-byte message (R84, R85, R87). -/
theorem runOps_oneByteMessage (hi : exec i s = .next (start k ch 1 (classified s)))
    (hk : k ≠ Cmd.startSysex) (hone : k ∉ s.cfg.cmds.twoByteClasses) (d : Data7) :
    ∃ (v : Value14) (t : State),
      v.toNat = d.toNat ∧
      runOps [i, .data d] s = some (t,
        [(classified s).out, { Outputs.nothing with event := callEvent (slot s k) k ch v }]) ∧
      mode t.P = .idle := by
  have hrun := runOps_append (runOps_single hi)
    (runOps_single (exec_data_last d (mode_start hk ch 1 (classified s)) rfl rfl))
  rw [slot_congr (s := start k ch 1 (classified s)) (t := s) (classified_T s)] at hrun
  refine ⟨_, _, ?_, hrun, rfl⟩
  exact toNat_payloadValue_one (by simpa using hone) _

end

section
variable {mk : Nibble → Instr} {clsOf : Commands → Byte}
  (hrow : ∀ c, ⟨0xF0, clsOf c, fun b => mk (channelOf b)⟩ ∈ channelRows c)

include hrow

/-- What makes a row of the wire table a class with a 2-byte payload. -/
theorem isMessageClass_two (hmem : ∀ c, clsOf c ∈ c.twoByteClasses)
    (hexec : ∀ ch s, exec (mk ch) s = .next (start (clsOf s.cfg.cmds) ch 2 (commandByte s))) :
    IsMessageClass mk clsOf 2 := by
  rintro s ch cls hc rfl
  have hi := commandByte_eq s ▸ hexec ch s
  have hne := ne_startSysex_of_mem_fixedClasses hc (List.mem_append_left _ (hmem s.cfg.cmds))
  exact ⟨decode_class_add_channel hc (hrow _) ch, hi,
    fun _ d1 d2 => runOps_twoByteMessage hi hne (hmem _) d1 d2, fun h => absurd h (by decide)⟩

/-- What makes a row of the wire table a class with a 1-byte payload. -/
theorem isMessageClass_one (hmem : ∀ c, clsOf c ∈ c.oneByteClasses)
    (hexec : ∀ ch s, exec (mk ch) s = .next (start (clsOf s.cfg.cmds) ch 1 (commandByte s))) :
    IsMessageClass mk clsOf 1 := by
  rintro s ch cls hc rfl
  have hi := commandByte_eq s ▸ hexec ch s
  have hne := ne_startSysex_of_mem_fixedClasses hc (List.mem_append_right _ (hmem s.cfg.cmds))
  exact ⟨decode_class_add_channel hc (hrow _) ch, hi, fun h => absurd h (by decide),
    fun _ d => runOps_oneByteMessage hi hne (not_mem_twoByteClasses_of_mem_oneByteClasses hc (hmem _)) d⟩

end

/-- Settles O17: the three classes are rows of the wire table whose instructions start a message of 2 bytes. -/
theorem twoByteMessageClasses : Obligations.TwoByteMessageClasses := by
  unfold Obligations.TwoByteMessageClasses
  refine ⟨isMessageClass_two ?_ ?_ fun _ _ => rfl, isMessageClass_two ?_ ?_ fun _ _ => rfl, rfl,
    isMessageClass_two ?_ ?_ fun _ _ => rfl, rfl⟩
  all_goals simp [channelRows, Commands.twoByteClasses, Cmd.analogMessage]

/-- Settles O18: the two classes are rows of the wire table whose instructions start a message of 1 byte. -/
theorem oneByteMessageClasses : Obligations.OneByteMessageClasses := by
  unfold Obligations.OneByteMessageClasses
  refine ⟨isMessageClass_one ?_ ?_ fun _ _ => rfl, rfl, isMessageClass_one ?_ ?_ fun _ _ => rfl, rfl⟩
  all_goals simp [channelRows, Commands.oneByteClasses]

/-- ANALOG_MESSAGE starts a message of its class in every assignment (R90). -/
theorem exec_analogMessage_eq (c : Nibble) (s : State) :
    exec (.analogMessage c) s = .next (start 0x90 c 2 (classified s)) := by
  rw [exec_analogMessage, execAnalogMessage, commandByte_eq]
  rfl

/-- The class of ANALOG_MESSAGE has a 2-byte payload in every assignment (R66). -/
theorem analogMessage_mem_twoByteClasses (c : Commands) : 0x90 ∈ c.twoByteClasses := List.mem_cons_self

/-- Settles O21: a completed message leaves an idle decoder, where a data byte is dropped. -/
theorem idleDataByteDropped : Obligations.IdleDataByteDropped := by
  unfold Obligations.IdleDataByteDropped
  refine ⟨fun _ d hm => exec_data_idle d hm, fun s c d1 d2 d3 => ?_⟩
  obtain ⟨_, _, -, hrun, hidle⟩ := runOps_twoByteMessage (exec_analogMessage_eq c s) (by decide)
    (analogMessage_mem_twoByteClasses _) d1 d2
  exact ⟨_, _, _, _, runOps_append hrun (runOps_single (exec_data_idle d3 hidle))⟩

/-! ### Other host operations between the bytes of a message (R104) -/

/-- What a run of other host operations leaves alone: the message in progress, the drops, the parameters. -/
structure KeepsMessage (s t : State) : Prop where
  cfg : t.cfg = s.cfg
  P : t.P = s.P
  S : t.S = s.S
  DC : t.DC = s.DC

theorem KeepsMessage.trans {s t u : State} (hst : KeepsMessage s t) (htu : KeepsMessage t u) : KeepsMessage s u :=
  ⟨htu.cfg.trans hst.cfg, htu.P.trans hst.P, htu.S.trans hst.S, htu.DC.trans hst.DC⟩

/-- Neither of the two operations that write the registry, ATTACH and DETACH, is among `ops` (R125). -/
def NoRegistryWrite (ops : List Instr) : Prop :=
  (∀ key h, Instr.attach key h ∉ ops) ∧ ∀ key, Instr.detach key ∉ ops

theorem NoRegistryWrite.of_cons {i : Instr} {ops : List Instr} (h : NoRegistryWrite (i :: ops)) :
    NoRegistryWrite [i] ∧ NoRegistryWrite ops := by
  simp_all [NoRegistryWrite]

/-- One other host operation keeps the message and gives no event (R104). -/
theorem exec_otherHostOp {i : Instr} (hi : isOtherHostOp i = true) (s : State) :
    ∃ t, exec i s = .next t ∧ KeepsMessage s t ∧ t.out.event = .noEvent ∧ (NoRegistryWrite [i] → t.T = s.T) := by
  cases i with
  | attach key h =>
    refine ⟨_, rfl, ⟨rfl, rfl, rfl, rfl⟩, rfl, fun ⟨hattach, _⟩ => ?_⟩
    exact absurd List.mem_cons_self (hattach key h)
  | detach key =>
    refine ⟨_, rfl, ⟨rfl, rfl, rfl, rfl⟩, rfl, fun ⟨_, hdetach⟩ => ?_⟩
    exact absurd List.mem_cons_self (hdetach key)
  | encAnalog | encDigital | encExtended | encVersion | readDiag =>
    exact ⟨_, rfl, ⟨rfl, rfl, rfl, rfl⟩, rfl, fun _ => rfl⟩
  | _ => simp [isOtherHostOp] at hi

theorem eventsOf_append (os ps : List Outputs) : eventsOf (os ++ ps) = eventsOf os ++ eventsOf ps := by
  simp [eventsOf]

/-- A step without an event adds none to those of the run. -/
theorem eventsOf_cons_noEvent {o : Outputs} (ho : o.event = .noEvent) (os : List Outputs) :
    eventsOf (o :: os) = eventsOf os := by
  simp [eventsOf, ho]

/-- A run of other host operations keeps the message and gives no event (R104). -/
theorem runOps_otherHostOps {ops : List Instr} (hops : ∀ i ∈ ops, isOtherHostOp i = true) (s : State) :
    ∃ t os, runOps ops s = some (t, os) ∧ KeepsMessage s t ∧ eventsOf os = [] ∧
      (NoRegistryWrite ops → t.T = s.T) := by
  induction ops generalizing s with
  | nil => exact ⟨s, [], rfl, ⟨rfl, rfl, rfl, rfl⟩, rfl, fun _ => rfl⟩
  | cons i ops ih =>
    obtain ⟨hi, hrest⟩ := List.forall_mem_cons.1 hops
    obtain ⟨t, hexec, hst, hevent, hT⟩ := exec_otherHostOp hi s
    obtain ⟨u, os, hrun, htu, hevents, hU⟩ := ih hrest t
    refine ⟨u, t.out :: os, by rw [runOps_cons hexec, hrun]; rfl, hst.trans htu,
      (eventsOf_cons_noEvent hevent os).trans hevents, fun hreg => ?_⟩
    obtain ⟨hone, hmany⟩ := hreg.of_cons
    exact (hU hmany).trans (hT hone)

/-- Settles O23: the run between the bytes keeps the message and adds no event, so the message completes across it. -/
theorem partialMessagePersists : Obligations.PartialMessagePersists := by
  unfold Obligations.PartialMessagePersists
  intro ops hops
  refine ⟨fun s => ?_, fun s c d1 d2 hattach hdetach => ?_⟩
  · obtain ⟨t, os, hrun, hkeep, -, -⟩ := runOps_otherHostOps hops s
    exact ⟨t, os, hrun, hkeep.P, hkeep.S, hkeep.DC⟩
  · obtain ⟨u, os, hrun, hkeep, hevents, hT⟩ := runOps_otherHostOps hops (awaitingLast 0x90 c d1 s)
    obtain ⟨v, t, hv, hall, hidle⟩ := runOps_twoByteMessage_across (exec_analogMessage_eq c s) (by decide)
      (analogMessage_mem_twoByteClasses _) d1 d2 hrun hkeep.P
      (hkeep.cfg.trans (classified_cfg s)) ((hT ⟨hattach, hdetach⟩).trans (classified_T s))
    refine ⟨t, _, v, hv, hall, ?_, hidle⟩
    rw [eventsOf_append, eventsOf_append, hevents, eventsOf_cons_noEvent (classified_event s),
      eventsOf_cons_noEvent rfl]
    rfl

end Sys2Proof.Machine

/-! PROOFS. The callback registry (41_callback_registry.md): what ATTACH and DETACH write, that nothing else writes a
slot, and the drop counter over a run, by which a message without a handler is seen to leave no trace. -/

namespace Sys2Proof.Machine

/-! ### A write of one slot (R120, R121) -/

/-- Writing to a slot what it holds changes nothing. -/
theorem setSlot_of_slot_eq {key : Byte} {o : Option HandlerId} {s : State} (h : slot s key = o) :
    setSlot key o s = s := by
  subst h
  simp [setSlot, slot]

/-- Settles O37: ATTACH is the one write of the slot, and a second write finds there what it would store. -/
theorem attachSetsOneSlot : Obligations.AttachSetsOneSlot := by
  unfold Obligations.AttachSetsOneSlot
  intro s key h
  refine ⟨setSlot key (some h) (beginStep s), rfl, rfl, fun j => slot_setSlot key j (some h) _, ?_⟩
  have hagain : setSlot key (some h) (setSlot key (some h) (beginStep s)) = setSlot key (some h) (beginStep s) :=
    setSlot_of_slot_eq (slot_setSlot_self key (some h) _)
  exact congrArg Host.Outcome.next hagain

/-! ### What writes no slot (R125) -/

/-- A data byte in FIXED mode writes the parser registers and the event output, and nothing else (R82 to R85). -/
theorem fixedData_writes (d : Data7) (s : State) :
    ∃ p e, fixedData d s = { s with P := p, out := { s.out with event := e } } := by
  unfold fixedData
  split
  · unfold completeFixed
    split
    · unfold dispatch
      split
      · exact ⟨_, _, rfl⟩
      · exact ⟨_, _, rfl⟩
    · exact ⟨_, _, rfl⟩
  · exact ⟨_, _, rfl⟩

@[simp] theorem fixedData_T (d : Data7) (s : State) : (fixedData d s).T = s.T := by
  obtain ⟨_, _, h⟩ := fixedData_writes d s
  rw [h]

@[simp] theorem sysexData_T (d : Data7) (s : State) : (sysexData d s).T = s.T := by
  rcases sysexData_cases d s with ⟨-, h⟩ | ⟨-, h⟩ <;> rw [h]

@[simp] theorem completeSysex_T (s : State) : (completeSysex s).T = s.T := by
  rcases completeSysex_cases s with ⟨-, h⟩ | ⟨-, -, h⟩ | ⟨-, -, h⟩ <;> rw [h] <;> rfl

@[simp] theorem commandByte_T (s : State) : (commandByte s).T = s.T := by
  rw [commandByte_eq, classified_T]

@[simp] theorem classifyAndStart_T (b : Byte) (s : State) : (classifyAndStart b s).T = s.T := by
  rcases classifyAndStart_cases b s with ⟨_, -, h⟩ | ⟨_, -, h⟩ | h | h | h | h <;> rw [h] <;> rfl

@[simp] theorem feedByte_T (b : Byte) (s : State) : (feedByte b s).T = s.T := by
  unfold feedByte
  split
  · split_ifs <;> simp
  · split_ifs <;> simp
  · simp

/-- Settles O39: FEED and the wire bytes are made of operations that write no slot, and the encoder operations and
READ_DIAG only put something out. -/
theorem registryWrittenOnlyByAttachDetach : Obligations.RegistryWrittenOnlyByAttachDetach := by
  unfold Obligations.RegistryWrittenOnlyByAttachDetach
  intro s t i hexec hattach hdetach
  cases i with
  | attach key h => exact absurd rfl (hattach key h)
  | detach key => exact absurd rfl (hdetach key)
  | feed b =>
    obtain rfl := Host.Outcome.next.inj hexec
    exact feedByte_T b (beginStep s)
  | data d =>
    obtain rfl := Host.Outcome.next.inj hexec
    split <;> simp
  | endSysex =>
    obtain rfl := Host.Outcome.next.inj hexec
    split <;> simp
  | encAnalog | encDigital | encExtended | encVersion | readDiag =>
    obtain rfl := Host.Outcome.next.inj hexec
    rfl
  | _ =>
    obtain rfl := Host.Outcome.next.inj hexec
    exact commandByte_T s

/-! ### The drop counter moves by the causes recorded (R141) -/

/-- The abort before a command byte counts the one cause it records (R88). -/
theorem classified_DC (s : State) : (classified s).DC = s.DC + BitVec.ofNat 16 (classified s).out.diag.length := by
  unfold classified
  split <;> simp [Outputs.nothing]

/-- One instruction moves the drop counter by the number of causes it records. -/
theorem Effect.DC_eq {s t : State} (h : Effect s t) : t.DC = s.DC + BitVec.ofNat 16 t.out.diag.length := by
  cases h with
  | fixedData d _ =>
    obtain ⟨_, _, h⟩ := fixedData_writes d (beginStep s)
    simp [h, Outputs.nothing]
  | sysexData d _ =>
    rcases sysexData_cases d (beginStep s) with ⟨-, h⟩ | ⟨-, h⟩ <;> simp [h, Outputs.nothing]
  | completeSysex _ =>
    rcases completeSysex_cases (beginStep s) with ⟨-, h⟩ | ⟨-, -, h⟩ | ⟨-, -, h⟩ <;> simp [h, Outputs.nothing]
  | start2 | start1 | wireReset | announce | beginSysex => exact classified_DC s
  | unrecognized => simp [classified_DC s, BitVec.ofNat_add, BitVec.add_assoc]
  | setSlot | emitTx | emitResult => simp [Outputs.nothing]

/-- A run moves the drop counter by the number of causes of all its steps. -/
theorem runOps_DC {is : List Instr} {s t : State} {os : List Outputs} (h : runOps is s = some (t, os)) :
    t.DC = s.DC + BitVec.ofNat 16 (causesOf os).length := by
  induction is generalizing s os with
  | nil =>
    obtain ⟨rfl, rfl⟩ : s = t ∧ [] = os := by simpa using h
    simp [causesOf]
  | cons i is ih =>
    simp only [runOps] at h
    split at h
    next u hexec =>
      obtain ⟨⟨_, ps⟩, hrest, heq⟩ := Option.map_eq_some_iff.1 h
      obtain ⟨rfl, rfl⟩ := Prod.mk.inj heq
      rw [ih hrest, (effect_exec hexec).DC_eq]
      simp [causesOf, BitVec.ofNat_add, BitVec.add_assoc]
    next => cases h
    next => cases h

/-! ### DETACH (R121) -/

/-- Settles O38: DETACH is the one write of the slot, and a message that finds the slot empty completes with no event;
its run records no cause, so the counter stands. -/
theorem detachClearsOneSlot : Obligations.DetachClearsOneSlot := by
  unfold Obligations.DetachClearsOneSlot
  refine ⟨fun s key => ?_, fun s c d1 d2 hm => ?_⟩
  · refine ⟨setSlot key none (beginStep s), rfl, rfl, fun j => slot_setSlot key j none _, fun hempty => ?_⟩
    have hsame : setSlot key none (beginStep s) = beginStep s := setSlot_of_slot_eq hempty
    rw [hsame, beginStep_T]
  · have hdetach : exec (.detach 0x90) s = .next (setSlot 0x90 none (beginStep s)) := rfl
    have hstart : mode (setSlot 0x90 none (beginStep s)).P = .idle := hm
    obtain ⟨_, t, -, hmessage, hidle⟩ :=
      runOps_twoByteMessage (exec_analogMessage_eq c (setSlot 0x90 none (beginStep s))) (by decide)
        (analogMessage_mem_twoByteClasses _) d1 d2
    rw [slot_setSlot_self, classified_of_idle hstart] at hmessage
    have hrun := runOps_append (runOps_single hdetach) hmessage
    refine ⟨t, hrun, hidle, ?_⟩
    simpa [causesOf, Outputs.nothing] using runOps_DC hrun

end Sys2Proof.Machine

/-! PROOFS. The frame encoder (42_frame_encoder.md): the bytes of a channel message by their numbers, what the encoder
operations put out, the operand check before them, and the version announcement. -/

namespace Sys2Proof.Machine

/-! ### The bytes of a channel message (R64, R130, R131) -/

/-- Masking a pin with 0x0F keeps its remainder by 16 (R69, R130). -/
theorem toNat_nibbleOf (pin : Byte) : (nibbleOf pin).toNat = pin.toNat % 16 := by
  have hmask : pin.toNat &&& (15 : Byte).toNat = pin.toNat % 16 := Nat.and_two_pow_sub_one_eq_mod pin.toNat 4
  rw [nibbleOf, BitVec.toNat_setWidth, BitVec.toNat_and, hmask, Nat.mod_mod]

/-- A channel message is three bytes: the class plus the low nibble of the pin, and the remainder and the quotient of
the value by 128, which are 7-bit clean (R64, R69). -/
theorem channelMessage_bytes {k : Byte} (hk : k ∈ channelConstants) (pin : Byte) (v : Value14) :
    ∃ b0 b1 b2 : Byte,
      b0.toNat = k.toNat + pin.toNat % 16 ∧ b1.toNat = v.toNat % 128 ∧ b2.toNat = v.toNat / 128 ∧
      b1.toNat < 128 ∧ b2.toNat < 128 ∧ channelMessage k (nibbleOf pin) v = [b0, b1, b2] := by
  have hlow := toNat_lowByte v
  have hhigh := toNat_highByte v
  obtain ⟨hcommand, -, -⟩ := channelByte_of_class k hk (nibbleOf pin)
  refine ⟨channelByte k (nibbleOf pin), lowByte v, highByte v, ?_, hlow, hhigh, ?_, ?_, rfl⟩
  · rw [hcommand, toNat_nibbleOf]
  · omega
  · have hv := v.isLt
    omega

/-! ### What the encoder operations put out (R130 to R132) -/

/-- Bytes put out first in a step are all that it puts out, and no register changes. -/
theorem emitTx_beginStep (bytes : List Byte) (s : State) :
    emitTx bytes (beginStep s) = { s with out := { Outputs.nothing with tx := bytes } } := rfl

/-- Settles O43: ENC_ANALOG puts out the channel message of class 0x90. -/
theorem encAnalogBytes : Obligations.EncAnalogBytes := by
  unfold Obligations.EncAnalogBytes
  intro s pin value
  have hclass : Cmd.analogMessage ∈ channelConstants := by decide
  obtain ⟨b0, b1, b2, h0, h1, h2, hlow, hhigh, hbytes⟩ := channelMessage_bytes hclass pin value
  refine ⟨b0, b1, b2, h0, h1, h2, hlow, hhigh, ?_⟩
  rw [exec_encAnalog, execEncAnalog, emitTx_beginStep, hbytes]

/-- Settles O44: ENC_DIGITAL puts out the channel message of the instance's DIGITAL_MESSAGE, which is a class in a
conforming assignment (R9). -/
theorem encDigitalBytes : Obligations.EncDigitalBytes := by
  unfold Obligations.EncDigitalBytes
  refine ⟨rfl, fun s port value hc => ?_⟩
  obtain ⟨hclasses, -, -, -⟩ := hc
  have hclass : s.cfg.cmds.digitalMessage ∈ channelConstants :=
    hclasses _ (by simp [Commands.fixedClasses, Commands.twoByteClasses])
  obtain ⟨b0, b1, b2, h0, h1, h2, hlow, hhigh, hbytes⟩ := channelMessage_bytes hclass port value
  refine ⟨b0, b1, b2, h0, h1, h2, hlow, hhigh, ?_⟩
  rw [exec_encDigital, execEncDigital, emitTx_beginStep, hbytes]

/-- Settles O45: ENC_EXTENDED puts out its operands as they are, between the two delimiters. -/
theorem encExtendedBytes : Obligations.EncExtendedBytes := by
  unfold Obligations.EncExtendedBytes
  intro s cmd payload
  refine ⟨_, rfl, emitTx_beginStep (sysexMessage cmd payload) s, ?_⟩
  simp [emitTx_beginStep, sysexMessage]

/-! ### A step that takes a port word (R30, R152) -/

/-- A step that finds a word runs the instruction that the word decodes to. -/
theorem step_of_decode_ok {s : State} {rest : List HostInput} {w : PortWord} {i : Instr}
    (hinbox : s.inbox = .word w :: rest) (hdecode : decode s.cfg.cmds w = .ok i) :
    step s = exec i { s with inbox := rest } := by
  simp only [step, fetch, hinbox, hdecode]

/-- A step that finds a word which the decoder refuses is refused by the same name. -/
theorem step_of_decode_error {s : State} {rest : List HostInput} {w : PortWord} {why : Reject}
    (hinbox : s.inbox = .word w :: rest) (hdecode : decode s.cfg.cmds w = .error why) :
    step s = .refused (.rejected why) := by
  simp only [step, fetch, hinbox, hdecode]

/-! ### The operands of ENC_ANALOG and ENC_DIGITAL (R134) -/

/-- With a byte pin, whether ENC_ANALOG or ENC_DIGITAL is decoded is decided by the value, and both complete. -/
theorem decode_valueEncoder {hop : Nat} (hhop : hop = 3 ∨ hop = 4) (c : Commands) (pin : Byte) :
    ∃ mk : Value14 → Instr,
      (∀ v, decode c (.op hop [pin.toNat, v]) = (decodeValue v).map mk) ∧
      ∀ value s, ∃ t, exec (mk value) s = .next t := by
  rcases hhop with rfl | rfl
  · refine ⟨.encAnalog pin, fun v => ?_, fun _ _ => ⟨_, rfl⟩⟩
    rw [decode, decodeOp, decodeByte_toNat]
    rfl
  · refine ⟨.encDigital pin, fun v => ?_, fun _ _ => ⟨_, rfl⟩⟩
    rw [decode, decodeOp, decodeByte_toNat]
    rfl

/-- A value above 16383 is refused by name (R134). -/
theorem decodeValue_of_gt {v : Nat} (hv : 16383 < v) : decodeValue v = .error (.valueTooWide v) := by
  have hwide : ¬ v < 16384 := by omega
  simp [decodeValue, isValue14, hwide]

/-- Settles O11: the pin is decoded as itself, so the value alone decides. -/
theorem encoderValueAbove16383Refused : Obligations.EncoderValueAbove16383Refused := by
  unfold Obligations.EncoderValueAbove16383Refused
  intro s rest hop pin v hhop hpin hinbox
  obtain ⟨p, rfl⟩ : ∃ p : Byte, p.toNat = pin := ⟨BitVec.ofNatLT pin hpin, BitVec.toNat_ofNatLT pin hpin⟩
  obtain ⟨mk, hdecode, hexec⟩ := decode_valueEncoder hhop s.cfg.cmds p
  split_ifs with hv
  · exact step_of_decode_error hinbox (by rw [hdecode, decodeValue_of_gt hv]; rfl)
  · have hfit : v < 2 ^ 14 := by omega
    obtain ⟨value, rfl⟩ : ∃ value : Value14, value.toNat = v := ⟨BitVec.ofNatLT v hfit, BitVec.toNat_ofNatLT v hfit⟩
    rw [step_of_decode_ok hinbox (by rw [hdecode, decodeValue_toNat]; rfl)]
    exact hexec value _

/-! ### The version announcement (R96, R133, R171) -/

/-- A fed command byte is classified in the state that R89 wants, unless it completes an extended message. -/
theorem feedByte_beginStep_of_command {b : Byte} {s : State} (hb : 0x80 ≤ b.toNat)
    (hend : mode s.P = .sysex → b ≠ 0xF7) : feedByte b (beginStep s) = classifyAndStart b (classified s) := by
  rw [← commandByte_eq, commandByte, abortInProgress]
  cases hm : mode s.P with
  | idle => simp [feedByte, hm]
  | fixed => simpa [hm] using feedByte_of_abort (s := beginStep s) hb (.inl hm)
  | sysex => simpa [hm] using feedByte_of_abort (s := beginStep s) hb (.inr ⟨hm, hend hm⟩)

/-- A system byte is a command byte, is its own class (R68, R89), and is no class of a channel command (R9). -/
theorem systemConstants_class : ∀ b ∈ systemConstants,
    0x80 ≤ b.toNat ∧ commandClass b = b ∧ b ∉ channelConstants := by decide

/-- In a conforming assignment REPORT_VERSION is a system byte and none of the other three system commands (R9). -/
theorem reportVersion_of_conforming {c : Commands} (hc : c.Conforming) :
    c.reportVersion ∈ systemConstants ∧ c.reportVersion ≠ Cmd.startSysex ∧ c.reportVersion ≠ Cmd.endSysex ∧
    c.reportVersion ≠ Cmd.systemReset := by
  obtain ⟨-, -, hsystem, hnodup⟩ := hc
  refine ⟨hsystem _ (by simp [Commands.systemCommands]), ?_⟩
  simp only [Commands.systemCommands, List.nodup_cons, List.mem_cons, List.not_mem_nil, or_false, not_or] at hnodup
  obtain ⟨⟨-, hstart, -⟩, ⟨hend, -⟩, hreset, -⟩ := hnodup
  exact ⟨Ne.symm hstart, Ne.symm hend, hreset⟩

/-- REPORT_VERSION is classified as a request for the announcement (R89, R96). -/
theorem classifyAndStart_reportVersion {s : State} (hc : s.cfg.cmds.Conforming) :
    classifyAndStart s.cfg.cmds.reportVersion s = announce s := by
  obtain ⟨hmem, -, -, hreset⟩ := reportVersion_of_conforming hc
  obtain ⟨-, hself, hchannel⟩ := systemConstants_class _ hmem
  obtain ⟨hclasses, -, -, -⟩ := hc
  have htwo : s.cfg.cmds.reportVersion ∉ s.cfg.cmds.twoByteClasses :=
    fun h => hchannel (hclasses _ (List.mem_append_left _ h))
  have hone : s.cfg.cmds.reportVersion ∉ s.cfg.cmds.oneByteClasses :=
    fun h => hchannel (hclasses _ (List.mem_append_right _ h))
  rw [classifyAndStart, hself, if_neg htwo, if_neg hone, if_neg hreset, if_pos rfl]

/-- A FEED of REPORT_VERSION puts out the announcement, after an abort of what is in progress (R96). -/
theorem exec_feed_reportVersion {s : State} (hc : s.cfg.cmds.Conforming) :
    exec (.feed s.cfg.cmds.reportVersion) s = .next (announce (classified s)) := by
  obtain ⟨hmem, -, hend, -⟩ := reportVersion_of_conforming hc
  obtain ⟨hcommand, -, -⟩ := systemConstants_class _ hmem
  have hclassify := classifyAndStart_reportVersion (s := classified s) (by rwa [classified_cfg])
  rw [classified_cfg] at hclassify
  rw [exec_feed, execFeed, feedByte_beginStep_of_command hcommand fun _ => hend, hclassify]

/-- Settles O46: all three put out the version bytes of the instance. -/
theorem encVersionBytes : Obligations.EncVersionBytes := by
  unfold Obligations.EncVersionBytes
  intro s hc
  refine ⟨?_, ⟨_, exec_feed_reportVersion hc, ?_⟩, fun hannounce => if_pos hannounce⟩
  · rw [exec_encVersion, execEncVersion, announce, emitTx_beginStep]
    rfl
  · simp [Config.versionBytes]

end Sys2Proof.Machine

/-! PROOFS. Diagnostics (43_diagnostics.md): READ_DIAG, the causes of each FEED from the tables of R72 and R141, what is
no drop, and the counter over a wire reset. -/

namespace Sys2Proof.Machine

/-! ### Recognized commands by class (R72) -/

/-- Below 0xF0 a byte is classified by its class, which is the number without its remainder by 16 and no system byte
(R61, R68). -/
theorem commandClass_of_lt_F0 : ∀ b : Byte, b.toNat < 0xF0 →
    (commandClass b).toNat = b.toNat - b.toNat % 16 ∧ commandClass b ∉ systemConstants := by decide

/-- From 0xF0 up a byte is classified by itself, and is no class of a channel command (R62, R68). -/
theorem commandClass_of_ge_F0 : ∀ b : Byte, ¬ b.toNat < 0xF0 →
    commandClass b = b ∧ b ∉ channelConstants := by decide

/-- What classification recognizes: the five message classes, and the system commands but END_SYSEX (R89). -/
def Recognized (c : Commands) (k : Byte) : Prop :=
  k ∈ c.fixedClasses ∨ k ∈ [Cmd.startSysex, c.reportVersion, Cmd.systemReset]

/-- In a conforming assignment the table of R72, read by numbers, has the commands that classification recognizes. -/
theorem recognizedCommand_iff {c : Commands} (hc : c.Conforming) (b : Byte) :
    recognizedCommand c b = true ↔ Recognized c (commandClass b) := by
  obtain ⟨hversion, -, -, -⟩ := reportVersion_of_conforming hc
  obtain ⟨hclasses, -, -, -⟩ := hc
  by_cases hb : b.toNat < 0xF0
  · obtain ⟨hnat, hnotSystem⟩ := commandClass_of_lt_F0 b hb
    have hsystem : commandClass b ∉ [Cmd.startSysex, c.reportVersion, Cmd.systemReset] := by
      intro hmem
      simp only [List.mem_cons, List.not_mem_nil, or_false] at hmem
      rcases hmem with h | h | h <;> rw [h] at hnotSystem
      · exact hnotSystem (by decide)
      · exact hnotSystem hversion
      · exact hnotSystem (by decide)
    simp only [Recognized, hsystem, or_false, recognizedCommand, if_pos hb, ← hnat]
    simp [Commands.fixedClasses, Commands.twoByteClasses, Commands.oneByteClasses, Cmd.analogMessage,
      ← BitVec.toNat_inj]
  · obtain ⟨hself, hchannel⟩ := commandClass_of_ge_F0 b hb
    have hfixed : b ∉ c.fixedClasses := fun h => hchannel (hclasses b h)
    simp only [Recognized, hself, hfixed, false_or, recognizedCommand, if_neg hb]
    simp [Cmd.startSysex, Cmd.systemReset, ← BitVec.toNat_inj]

/-- The five kinds of start record no cause (R89). -/
theorem classifyAndStart_diag_of_recognized {b : Byte} {s : State}
    (h : Recognized s.cfg.cmds (commandClass b)) : (classifyAndStart b s).out.diag = s.out.diag := by
  unfold classifyAndStart
  split_ifs with htwo hone hreset hversion hstart
  case neg => simp [Recognized, Commands.fixedClasses, htwo, hone, hreset, hversion, hstart] at h
  all_goals rfl

/-- What classification does not recognize is dropped (R89). -/
theorem classifyAndStart_of_not_recognized {b : Byte} {s : State}
    (h : ¬ Recognized s.cfg.cmds (commandClass b)) : classifyAndStart b s = drop .unrecognized s := by
  simp only [Recognized, Commands.fixedClasses, List.mem_append, List.mem_cons, List.not_mem_nil, or_false,
    not_or] at h
  obtain ⟨⟨htwo, hone⟩, hstart, hversion, hreset⟩ := h
  rw [classifyAndStart, if_neg htwo, if_neg hone, if_neg hreset, if_neg hversion, if_neg hstart]

/-- Classification records UNRECOGNIZED for a byte that the table of R72 does not have, and no other cause (R89). -/
theorem classifyAndStart_diag {s : State} (hc : s.cfg.cmds.Conforming) (b : Byte) :
    (classifyAndStart b s).out.diag =
      s.out.diag ++ if recognizedCommand s.cfg.cmds b then [] else [.unrecognized] := by
  have hiff := recognizedCommand_iff hc b
  split_ifs with h
  · rw [classifyAndStart_diag_of_recognized (hiff.1 h), List.append_nil]
  · rw [classifyAndStart_of_not_recognized (mt hiff.2 h), drop_out]

/-! ### The causes of a FEED (R141) -/

/-- What stands before a command byte is classified: the one cause ABORTED if a message was in progress (R88). -/
theorem classified_diag (s : State) : (classified s).out.diag = if mode s.P = .idle then [] else [.aborted] := by
  unfold classified
  split <;> rfl

@[simp] theorem fixedData_diag (d : Data7) (s : State) : (fixedData d s).out.diag = s.out.diag := by
  obtain ⟨_, _, h⟩ := fixedData_writes d s
  rw [h]

/-- A data byte in SYSEX mode writes the sysex registers and nothing else (R98). -/
theorem sysexData_writes (d : Data7) (s : State) : ∃ x, sysexData d s = { s with S := x } := by
  rcases sysexData_cases d s with ⟨-, h⟩ | ⟨-, h⟩
  · exact ⟨_, h⟩
  · exact ⟨_, h⟩

@[simp] theorem sysexData_out (d : Data7) (s : State) : (sysexData d s).out = s.out := by
  obtain ⟨_, h⟩ := sysexData_writes d s
  rw [h]

@[simp] theorem sysexData_DC (d : Data7) (s : State) : (sysexData d s).DC = s.DC := by
  obtain ⟨_, h⟩ := sysexData_writes d s
  rw [h]

/-- END_SYSEX in SYSEX mode records the overflow first, then the missing command byte, and else nothing (R99). -/
theorem completeSysex_diag (s : State) :
    (completeSysex s).out.diag = s.out.diag ++
      if s.S.ovf then [.sysexOverflow] else if s.S.count = 0 then [.emptySysex] else [] := by
  rcases completeSysex_cases s with ⟨hovf, h⟩ | ⟨hovf, h0, h⟩ | ⟨hovf, h0, h⟩
  · simp [h, hovf]
  · simp [h, hovf, h0]
  · simp [h, hovf, h0]

/-- A command byte that does not complete an extended message: the abort's cause, then that of classification. -/
theorem feedByte_diag_of_command {b : Byte} {s : State} (hc : s.cfg.cmds.Conforming) (hb : 0x80 ≤ b.toNat)
    (hend : mode s.P = .sysex → b ≠ 0xF7) :
    (feedByte b (beginStep s)).out.diag = (if mode s.P = .idle then [] else [.aborted]) ++
      if recognizedCommand s.cfg.cmds b then [] else [.unrecognized] := by
  rw [feedByte_beginStep_of_command hb hend, classifyAndStart_diag (by rwa [classified_cfg]), classified_diag,
    classified_cfg]

/-! What a FEED calls for the bytes that are no command byte in the middle of a message (R80). -/

theorem feedByte_of_idle {s : State} (b : Byte) (hm : mode s.P = .idle) : feedByte b s = classifyAndStart b s := by
  simp only [feedByte, hm]

theorem feedByte_data_of_fixed {b : Byte} {s : State} (hb : b.toNat < 0x80) (hm : mode s.P = .fixed) :
    feedByte b s = fixedData (dataOf b) s := by
  have hdata : b < 0x80 := hb
  simp only [feedByte, hm, if_pos hdata]

theorem feedByte_data_of_sysex {b : Byte} {s : State} (hb : b.toNat < 0x80) (hm : mode s.P = .sysex) :
    feedByte b s = sysexData (dataOf b) s := by
  have hdata : b < 0x80 := hb
  simp only [feedByte, hm, if_pos hdata]

theorem feedByte_endSysex_of_sysex {s : State} (hm : mode s.P = .sysex) :
    feedByte 0xF7 s = completeSysex s := by
  have hcommand : ¬ (0xF7 : Byte) < 0x80 := by decide
  have hend : (0xF7 : Byte) = Cmd.endSysex := rfl
  simp only [feedByte, hm, if_neg hcommand, if_pos hend]

/-- The causes of a FEED are those of the table of situations, mode by mode. -/
theorem feedByte_diag {s : State} (hc : s.cfg.cmds.Conforming) (b : Byte) :
    (feedByte b (beginStep s)).out.diag = feedCauses s b := by
  cases hm : mode s.P with
  | idle =>
    rw [feedByte_of_idle b (s := beginStep s) hm, classifyAndStart_diag (s := beginStep s) hc]
    simp only [feedCauses, hm]
    rfl
  | fixed =>
    by_cases hdata : b.toNat < 0x80
    · rw [feedByte_data_of_fixed (s := beginStep s) hdata hm, fixedData_diag]
      simp [feedCauses, hm, hdata, Outputs.nothing]
    · rw [feedByte_diag_of_command hc (by omega) (by simp [hm])]
      simp [feedCauses, hm, hdata]
  | sysex =>
    by_cases hdata : b.toNat < 0x80
    · rw [feedByte_data_of_sysex (s := beginStep s) hdata hm, sysexData_out]
      simp [feedCauses, hm, hdata, Outputs.nothing]
    by_cases hend : b = 0xF7
    · subst hend
      rw [feedByte_endSysex_of_sysex (s := beginStep s) hm, completeSysex_diag]
      simp only [feedCauses, hm]
      rfl
    · have hnat : b.toNat ≠ 0xF7 := fun h => hend (BitVec.eq_of_toNat_eq h)
      rw [feedByte_diag_of_command hc (by omega) fun _ => hend]
      simp [feedCauses, hm, hdata, hnat]

/-- Another host operation records no cause (R141). -/
theorem exec_otherHostOp_diag {i : Instr} {s t : State} (hi : isOtherHostOp i = true) (h : exec i s = .next t) :
    t.out.diag = [] := by
  cases i with
  | attach | detach | encAnalog | encDigital | encExtended | encVersion | readDiag =>
    obtain rfl := Host.Outcome.next.inj h
    rfl
  | _ => simp [isOtherHostOp] at hi

/-- Settles O34: the causes come from the table, and every effect moves the counter by the number of its causes. -/
theorem dropsExactlyAccounted : Obligations.DropsExactlyAccounted := by
  unfold Obligations.DropsExactlyAccounted
  refine ⟨fun s b hc => ?_, fun s t i hi hexec => ⟨exec_otherHostOp_diag hi hexec, ?_⟩, rfl, rfl, rfl, rfl⟩
  · have hexec : exec (.feed b) s = .next (feedByte b (beginStep s)) := rfl
    have hdiag := feedByte_diag hc b
    refine ⟨_, hexec, hdiag, ?_⟩
    rw [(effect_exec hexec).DC_eq, hdiag, BitVec.toNat_add, BitVec.toNat_ofNat, Nat.add_mod_mod]
  · obtain ⟨u, hu, hkeep, -, -⟩ := exec_otherHostOp hi s
    obtain rfl : u = t := Host.Outcome.next.inj (hu.symm.trans hexec)
    exact hkeep.DC

/-! ### A wire reset and a power-on reset (R143, R172) -/

/-- SYSTEM_RESET is classified as the wire reset (R89, R95): it is no class of a channel command. -/
theorem classifyAndStart_systemReset {s : State} (hc : s.cfg.cmds.Conforming) :
    classifyAndStart 0xFF s = wireReset s := by
  obtain ⟨hclasses, -, -, -⟩ := hc
  have hfixed : commandClass 0xFF ∉ s.cfg.cmds.fixedClasses := fun h => absurd (hclasses _ h) (by decide)
  have htwo : commandClass 0xFF ∉ s.cfg.cmds.twoByteClasses := fun h => hfixed (List.mem_append_left _ h)
  have hone : commandClass 0xFF ∉ s.cfg.cmds.oneByteClasses := fun h => hfixed (List.mem_append_right _ h)
  rw [classifyAndStart, if_neg htwo, if_neg hone, if_pos (by decide)]

/-- Settles O30: the wire reset follows the abort, which alone moves the counter. -/
theorem wireResetKeepsCounterAndRegistry : Obligations.WireResetKeepsCounterAndRegistry := by
  unfold Obligations.WireResetKeepsCounterAndRegistry
  refine ⟨fun s hc => ?_, fun s rest => ⟨_, rfl, rfl⟩⟩
  have hexec : exec (.feed 0xFF) s = .next (wireReset (classified s)) := by
    rw [exec_feed, execFeed, feedByte_beginStep_of_command (by decide) fun _ => by decide,
      classifyAndStart_systemReset (by rwa [classified_cfg])]
  have hDC : (classified s).DC = if mode s.P = .idle then s.DC else s.DC + 1 := by
    rw [classified_DC, classified_diag]
    split <;> simp
  refine ⟨_, hexec, rfl, ?_, classified_T s, hDC, classified_event s, classified_tx s⟩
  rw [wireReset_S, classified_cfg]

/-! ### What is no drop (R142) -/

/-- A data byte of a message whose class has no handler puts nothing out, whether it completes the message or not. -/
theorem exec_data_of_slot_none {s : State} {k : Byte} (d : Data7) (hk : s.P.active = some k)
    (hm : mode s.P = .fixed) (hslot : slot s k = none) :
    ∃ t, exec (.data d) s = .next t ∧ t.out = Outputs.nothing ∧ t.DC = s.DC := by
  by_cases hp : s.P.pending = 1
  · refine ⟨_, exec_data_last d hm hk hp, ?_, rfl⟩
    rw [hslot]
    rfl
  · have hexec : exec (.data d) s = .next (storeFixed d (beginStep s)) := by
      rw [← fixedData_of_not_last (s := beginStep s) d hp, exec_data, execData, hm]
    exact ⟨_, hexec, rfl, rfl⟩

/-- Settles O50: a data byte records nothing, and the message that overflowed is counted at its END_SYSEX. -/
theorem missingHandlerIsNoDrop : Obligations.MissingHandlerIsNoDrop := by
  unfold Obligations.MissingHandlerIsNoDrop
  refine ⟨fun s d k => exec_data_of_slot_none d, fun s d hm => ?_, fun s hm hovf => ?_⟩
  · have hexec : exec (.data d) s = .next (sysexData d (beginStep s)) := by rw [exec_data, execData, hm]
    exact ⟨_, hexec, sysexData_out d _, sysexData_DC d _⟩
  · obtain ⟨t, hexec, -, hoverflow, -, -⟩ := endSysexCompletes s hm
    obtain ⟨hDC, hout⟩ := hoverflow hovf
    exact ⟨t, hexec, by rw [hout], hDC⟩

/-! ### READ_DIAG (R140) -/

/-- READ_DIAG returns the counter, and no register changes. -/
theorem exec_readDiag_eq (s : State) :
    exec .readDiag s = .next { s with out := { Outputs.nothing with result := some s.DC } } := rfl

/-- Settles O49: the second READ_DIAG finds the counter that the first one left. -/
theorem readDiagReturnsCounter : Obligations.ReadDiagReturnsCounter := by
  unfold Obligations.ReadDiagReturnsCounter
  intro s
  have hfirst := runOps_single (exec_readDiag_eq s)
  exact ⟨exec_readDiag_eq s, _, runOps_append hfirst (runOps_single (exec_readDiag_eq _)), rfl⟩

end Sys2Proof.Machine

/-! PROOFS. Exceptions (60_exceptions.md): every instruction and every run of operations completes (R150). -/

namespace Sys2Proof.Machine

/-- Every meaning answers `.next`: whatever it decides, it decides about the next state (R150). -/
theorem exec_completes (i : Instr) (s : State) : ∃ t, exec i s = .next t := by
  cases i <;> exact ⟨_, rfl⟩

/-- A run of any operations completes from any state, with the outputs of each step. -/
theorem runOps_completes (is : List Instr) (s : State) :
    ∃ t os, runOps is s = some (t, os) ∧ os.length = is.length := by
  induction is generalizing s with
  | nil => exact ⟨s, [], runOps_nil s, rfl⟩
  | cons i is ih =>
    obtain ⟨t, hexec⟩ := exec_completes i s
    obtain ⟨u, os, hrun, hlen⟩ := ih t
    exact ⟨u, t.out :: os, by rw [runOps_cons hexec, hrun]; rfl, congrArg Nat.succ hlen⟩

/-- Settles O15: the bytes are fed by a run of as many operations, and every run completes. -/
theorem everyInstructionCompletes : Obligations.EveryInstructionCompletes := by
  unfold Obligations.EveryInstructionCompletes
  refine ⟨exec_completes, fun bs s => ?_⟩
  obtain ⟨t, os, hrun, hlen⟩ := runOps_completes (feeds bs) s
  exact ⟨t, os, hrun, hlen.trans (List.length_map _)⟩

end Sys2Proof.Machine

/-! PROOFS. Reset (70_reset_and_hazards.md section 1): the state of a new instance, and the first step after it. -/

namespace Sys2Proof.Machine

/-- The sysex registers of a new instance (R36): nothing counted, no overflow, and a buffer full of zeros. -/
theorem sysexInit_values (c : Config) :
    (Sysex.init c).count = 0 ∧ (Sysex.init c).ovf = false ∧ (Sysex.init c).buf.length = c.sysexCap ∧
    ∀ d ∈ (Sysex.init c).buf, d = 0 :=
  ⟨rfl, rfl, List.length_replicate, fun _ => List.eq_of_mem_replicate⟩

/-- The outputs of the power-on step (R171): no event, no cause, and the announcement if the instance announces. -/
theorem resetWith_outputs (c : Config) :
    (State.resetWith c).out.event = .noEvent ∧ (State.resetWith c).out.diag = [] ∧
    (State.resetWith c).out.tx = if c.announceOnReset then c.versionBytes else [] := ⟨rfl, rfl, rfl⟩

/-- The first operation put at the port of a new instance runs in the state that power-on left (R170). -/
theorem step_first_after_reset {c : Config} {w : PortWord} {i : Instr} (hdecode : decode c.cmds w = .ok i) :
    step { State.resetWith c with inbox := [.word w] } = exec i (State.resetWith c) :=
  step_of_decode_ok (s := { State.resetWith c with inbox := [.word w] }) rfl hdecode

/-- Settles O1: each register has the value that R36 gives it, and an operation put at the empty port is the first to
run. -/
theorem powerOnLeavesInitialState : Obligations.PowerOnLeavesInitialState := by
  unfold Obligations.PowerOnLeavesInitialState
  rintro c _ rfl
  obtain ⟨hcount, hovf, hlength, hzero⟩ := sysexInit_values c
  obtain ⟨hevent, hdiag, htx⟩ := resetWith_outputs c
  have hidle : mode (State.resetWith c).P = .idle := (mode_eq_idle_iff _).2 rfl
  exact ⟨rfl, hcount, hovf, hlength, hzero, slot_resetWith c, rfl, hidle, rfl, hevent, hdiag, htx,
    fun _ _ => step_first_after_reset⟩

end Sys2Proof.Machine

/-! PROOFS. The invariants of the registers (10_state.md section 1): what a step can be, that every step keeps them and
the parameters, and that they hold after reset. -/

namespace Sys2Proof.Machine

/-! ### What a step can be (R13, R30) -/

/-- A step that finds a power-on reset takes it, and leaves the inputs behind it. -/
theorem step_powerOn {s : State} {rest : List HostInput} (h : s.inbox = .powerOn :: rest) :
    step s = .next (powerOnReset { s with inbox := rest }) := by
  simp only [step, fetch, h]

/-- A step that answers a next state takes a power-on reset, or runs one instruction on the state without its word. -/
theorem step_next_cases {s t : State} (h : step s = .next t) :
    (∃ rest, t = powerOnReset { s with inbox := rest }) ∨
    ∃ rest i, exec i { s with inbox := rest } = .next t := by
  cases hinbox : s.inbox with
  | nil => simp [step, fetch, hinbox] at h
  | cons input rest =>
    cases input with
    | powerOn =>
      rw [step_powerOn hinbox] at h
      exact .inl ⟨rest, (Host.Outcome.next.inj h).symm⟩
    | word w =>
      cases hdecode : decode s.cfg.cmds w with
      | error why => simp [step_of_decode_error hinbox hdecode] at h
      | ok i => exact .inr ⟨rest, i, by rw [← step_of_decode_ok hinbox hdecode, h]⟩

/-- Settles O2: the power-on reset of the state that the input leaves. -/
theorem powerOnInputResets : Obligations.PowerOnInputResets := by
  unfold Obligations.PowerOnInputResets
  exact fun s rest hinbox => step_powerOn hinbox

/-- Settles O12: it is the step lemma that the encoder statements use. -/
theorem stepRunsDecoded : Obligations.StepRunsDecoded := by
  unfold Obligations.StepRunsDecoded
  exact fun s w rest i hinbox hdecode => step_of_decode_ok hinbox hdecode

/-! ### The parameters (R28) -/

/-- No instruction writes the parameters. -/
theorem Effect.cfg_eq {s t : State} (h : Effect s t) : t.cfg = s.cfg := by
  cases h with
  | fixedData d _ =>
    obtain ⟨_, _, h⟩ := fixedData_writes d (beginStep s)
    rw [h, beginStep_cfg]
  | sysexData d _ =>
    obtain ⟨_, h⟩ := sysexData_writes d (beginStep s)
    rw [h, beginStep_cfg]
  | completeSysex _ =>
    rcases completeSysex_cases (beginStep s) with ⟨-, h⟩ | ⟨-, -, h⟩ | ⟨-, -, h⟩ <;> rw [h] <;> rfl
  | start2 | start1 | wireReset | announce | beginSysex | unrecognized => exact classified_cfg s
  | setSlot | emitTx | emitResult => rfl

/-- Settles O52: an instruction has one of the effects, and a power-on reset starts the instance anew with its own
parameters. -/
theorem parametersNeverWritten : Obligations.ParametersNeverWritten := by
  unfold Obligations.ParametersNeverWritten
  refine ⟨fun s t i h => (effect_exec h).cfg_eq, fun s t h => ?_⟩
  rcases step_next_cases h with ⟨rest, rfl⟩ | ⟨rest, i, hexec⟩
  · rfl
  · exact (effect_exec hexec).cfg_eq

/-! ### The invariant of a state with no message in progress -/

/-- The invariant reads the parameters and the registers `P` and `S` alone. -/
theorem Inv.congr {s t : State} (h : Inv s) (hcfg : t.cfg = s.cfg) (hP : t.P = s.P) (hS : t.S = s.S) : Inv t := by
  obtain ⟨hlegal, hpending, hawaited, hactive, hpayload, hcount, hclear, hbuf⟩ := h
  constructor <;> simp only [hcfg, hP, hS] <;> assumption

/-- An idle decoder that awaits no byte and has counted none meets the invariant. -/
theorem inv_of_idle {t : State} (hlegal : t.cfg.legal) (hpending : t.P.pending = 0) (hactive : t.P.active = none)
    (hcount : t.S.count = 0) (hovf : t.S.ovf = false) (hbuf : t.S.buf.length = t.cfg.sysexCap) : Inv t where
  cfgLegal := hlegal
  pendingLe := by simp [hpending]
  pendingIff := by simp [hpending, hactive]
  activeLegal := by simp [hactive]
  payloadLe := by simp [hactive]
  countLe := by simp [hcount]
  sysexClear := fun _ => ⟨hcount, hovf⟩
  bufLength := hbuf

/-- The registers right after reset meet the invariant (R36). -/
theorem inv_of_init {t : State} (hlegal : t.cfg.legal) (hP : t.P = Parser.init) (hS : t.S = Sysex.init t.cfg) :
    Inv t := by
  apply inv_of_idle hlegal <;> simp [hP, hS, Parser.init, Sysex.init]

/-- R8's values conform (R9). -/
theorem default_conforming : Commands.default.Conforming := by
  unfold Commands.Conforming
  decide

/-- Settles O3: reset leaves `P_init` and `S_init`, and R8's values are legal parameters. -/
theorem resetMeetsInvariant : Obligations.ResetMeetsInvariant := by
  unfold Obligations.ResetMeetsInvariant
  have hreset : ∀ c : Config, c.legal → Inv (State.resetWith c) := fun c hlegal => inv_of_init hlegal rfl rfl
  exact ⟨hreset, hreset Config.default ⟨by decide, default_conforming⟩⟩

/-! ### Every operation keeps the invariant -/

theorem Inv.beginStep {s : State} (h : Inv s) : Inv (beginStep s) := h.congr rfl rfl rfl

/-- Outside FIXED mode no byte is awaited (R22 item 3). -/
theorem Inv.pending_eq_zero {s : State} (h : Inv s) (hm : mode s.P ≠ .fixed) : s.P.pending = 0 := by
  have hnone : ¬ 0 < s.P.pending.toNat := by
    rw [h.pendingIff]
    rintro ⟨k, hmem, hk⟩
    exact hm (mode_eq_fixed_of_active h.cfgLegal.2 hk hmem)
  exact BitVec.eq_of_toNat_eq (Nat.eq_zero_of_not_pos hnone)

/-- Where a command byte is classified, nothing is in progress (R88). -/
theorem Inv.classified {s : State} (h : Inv s) : Inv (classified s) := by
  by_cases hm : mode s.P = .idle
  · rw [classified_of_idle hm]
    exact h.congr rfl rfl rfl
  · simp only [Machine.classified, if_neg hm]
    exact inv_of_idle h.cfgLegal rfl rfl rfl rfl h.bufLength

/-- A start of a class that awaits as many bytes as its payload has (R66, R89). -/
theorem Inv.start {s : State} (h : Inv s) (hm : mode s.P = .idle) {cls : Byte} {n : BitVec 2} (ch : Nibble)
    (hcls : cls ∈ s.cfg.cmds.fixedClasses) (hn : n.toNat = payloadBytes s.cfg.cmds cls) :
    Inv (start cls ch n s) := by
  have hle : 0 < n.toNat ∧ n.toNat ≤ 2 := by
    rw [hn, payloadBytes]
    split <;> decide
  refine ⟨h.cfgLegal, hle.2, ⟨fun _ => ⟨cls, hcls, rfl⟩, fun _ => hle.1⟩, ?_, ?_, h.countLe, ?_, h.bufLength⟩
  · rintro k ⟨⟩
    exact .inl hcls
  · rintro k - ⟨⟩
    exact hn.le
  · exact fun _ => h.sysexClear (by simp [hm])

/-- START_SYSEX in an idle decoder (R97). -/
theorem Inv.beginSysex {s : State} (h : Inv s) (hm : mode s.P = .idle) : Inv (beginSysex s) := by
  have hpending := h.pending_eq_zero (by simp [hm])
  have hnot : ∀ k ∈ s.cfg.cmds.fixedClasses, k ≠ Cmd.startSysex :=
    fun k => ne_startSysex_of_mem_fixedClasses h.cfgLegal.2
  refine ⟨h.cfgLegal, h.pendingLe, ?_, ?_, ?_, Nat.zero_le _, fun _ => ⟨rfl, rfl⟩, h.bufLength⟩
  · simpa [hpending] using fun hmem => hnot _ hmem rfl
  · rintro k ⟨⟩
    exact .inr rfl
  · rintro k hk ⟨⟩
    exact absurd rfl (hnot _ hk)

/-- A data byte in FIXED mode awaits one byte less, or completes the message (R82 to R85). -/
theorem Inv.fixedData {s : State} (h : Inv s) (hm : mode s.P = .fixed) (hout : s.out.event = .noEvent) (d : Data7) :
    Inv (fixedData d s) := by
  obtain ⟨k, hk, hne⟩ := (mode_eq_fixed_iff s.P).1 hm
  have hclear := h.sysexClear (by simp [hm])
  have hmem : k ∈ s.cfg.cmds.fixedClasses := (h.activeLegal k hk).resolve_right hne
  by_cases hlast : s.P.pending = 1
  · rw [fixedData_last d hk hlast hout]
    exact inv_of_idle h.cfgLegal rfl rfl hclear.1 hclear.2 h.bufLength
  · have htwo : s.P.pending = 2 := by
      have hpos := h.pendingIff.2 ⟨k, hmem, hk⟩
      have hle := h.pendingLe
      revert hpos hle hlast
      generalize s.P.pending = n
      revert n
      decide
    rw [fixedData_of_not_last d hlast]
    have hs : storeFixed d s = { s with P := { s.P with pending := 1, buf1 := d } } := by
      simp [storeFixed, storeBuf, htwo]
    rw [hs]
    refine ⟨h.cfgLegal, Nat.le_succ 1, ⟨fun _ => ⟨k, hmem, hk⟩, fun _ => Nat.one_pos⟩, h.activeLegal, ?_, h.countLe,
      h.sysexClear, h.bufLength⟩
    intro j hj hactive
    have hle := h.payloadLe j hj hactive
    rw [htwo] at hle
    exact Nat.le_of_succ_le hle

/-- A data byte in SYSEX mode is counted only while there is room (R98). -/
theorem Inv.sysexData {s : State} (h : Inv s) (hm : mode s.P = .sysex) (d : Data7) : Inv (sysexData d s) := by
  have hlen := h.bufLength
  rcases sysexData_cases d s with ⟨hroom, hs⟩ | ⟨-, hs⟩ <;> rw [hs]
  · exact ⟨h.cfgLegal, h.pendingLe, h.pendingIff, h.activeLegal, h.payloadLe, hroom, fun hnot => absurd hm hnot,
      by simpa using hlen⟩
  · exact ⟨h.cfgLegal, h.pendingLe, h.pendingIff, h.activeLegal, h.payloadLe, h.countLe, fun hnot => absurd hm hnot,
      hlen⟩

/-- END_SYSEX in SYSEX mode leaves an idle decoder (R99). -/
theorem Inv.completeSysex {s : State} (h : Inv s) (hm : mode s.P = .sysex) : Inv (completeSysex s) := by
  have hpending := h.pending_eq_zero (by simp [hm])
  rcases completeSysex_cases s with ⟨-, hs⟩ | ⟨-, -, hs⟩ | ⟨-, -, hs⟩ <;> rw [hs] <;>
    exact inv_of_idle h.cfgLegal hpending rfl rfl rfl h.bufLength

/-- Every instruction keeps the invariant (R22). -/
theorem Effect.keeps_inv {s t : State} (heffect : Effect s t) (h : Inv s) : Inv t := by
  have hc : Inv (Machine.classified s) := h.classified
  have hidle := mode_classified s
  have hcfg := classified_cfg s
  cases heffect with
  | fixedData d hm => exact h.beginStep.fixedData hm rfl d
  | sysexData d hm => exact h.beginStep.sysexData hm d
  | completeSysex hm => exact h.beginStep.completeSysex hm
  | start2 cls hcls ch =>
    refine hc.start hidle ch (by rw [hcfg]; exact List.mem_append_left _ hcls) ?_
    rw [hcfg, payloadBytes, if_pos hcls]
    rfl
  | start1 cls hcls ch =>
    refine hc.start hidle ch (by rw [hcfg]; exact List.mem_append_right _ hcls) ?_
    rw [hcfg, payloadBytes, if_neg (not_mem_twoByteClasses_of_mem_oneByteClasses h.cfgLegal.2 hcls)]
    rfl
  | wireReset => exact inv_of_init hc.cfgLegal rfl rfl
  | beginSysex => exact hc.beginSysex hidle
  | announce | unrecognized => exact hc.congr rfl rfl rfl
  | setSlot | emitTx | emitResult => exact h.congr rfl rfl rfl

/-- Settles O4: an instruction runs in a state with the same registers and has one of the effects; a power-on reset
leaves the registers of a new instance. -/
theorem stepKeepsInvariant : Obligations.StepKeepsInvariant := by
  unfold Obligations.StepKeepsInvariant
  intro s t h hstep
  rcases step_next_cases hstep with ⟨rest, rfl⟩ | ⟨rest, i, hexec⟩
  · exact inv_of_init h.cfgLegal rfl rfl
  · exact (effect_exec hexec).keeps_inv (h.congr rfl rfl rfl)

end Sys2Proof.Machine

/-! PROOFS. The encoding tables (30_encoding.md): each byte has one row, decoder and encoder are inverse to each other
on the words that the ports admit, and the bytes of a listing. -/

namespace Sys2Proof

/-! ### One row for each byte (R72) -/

/-- The row DATA has the bytes below 0x80 (R60). -/
theorem dataRow_matches_iff (b : Byte) : dataRow.matches b = true ↔ b &&& 0x80 = 0 := beq_iff_eq

/-- Of rows that match by a key of the byte, those that match are the one whose pattern is the key, or there is none. -/
theorem filter_matches_of_key {rows : List WireRow} {key : Byte → Byte} {patterns : List Byte}
    (hmatches : ∀ r ∈ rows, ∀ b, r.matches b = (r.pattern == key b)) (hperm : (rows.map (·.pattern)).Perm patterns)
    (hnodup : patterns.Nodup) (b : Byte) :
    (key b ∈ patterns → ∃ r, rows.filter (fun r => r.matches b) = [r]) ∧
    (key b ∉ patterns → rows.filter (fun r => r.matches b) = []) := by
  have hfilter : rows.filter (fun r => r.matches b) = rows.filter (fun r => r.pattern == key b) :=
    List.filter_congr fun r hr => hmatches r hr b
  rw [hfilter]
  refine ⟨fun hmem => ?_, fun hnot => ?_⟩
  · obtain ⟨r, hr, hpattern⟩ := List.mem_map.1 (hperm.mem_iff.2 hmem)
    rw [← hpattern]
    exact ⟨r, filter_pattern_eq (hperm.nodup_iff.2 hnodup) hr⟩
  · refine List.filter_eq_nil_iff.2 fun r hr heq => hnot ?_
    rw [← eq_of_beq heq]
    exact hperm.subset (List.mem_map_of_mem hr)

/-- Every byte matches exactly one row of the wire table: DATA, a channel row or a system row, as its kind is. -/
theorem wireTable_filter {c : Commands} (hc : c.Conforming) (b : Byte) :
    ∃ r, (wireTable c).filter (fun r => r.matches b) = [r] := by
  obtain ⟨hchannel, hnoChannel⟩ := filter_matches_of_key (rows := channelRows c) (key := classOf)
    (fun r => matches_of_mem_channelRows) (channelRows_patterns hc) (by decide) b
  obtain ⟨hsystem, hnoSystem⟩ := filter_matches_of_key (rows := systemRows c) (key := fun b => b)
    (fun r => matches_of_mem_systemRows) (systemRows_patterns hc) (by decide) b
  rcases byte_kinds b with ⟨hdata, hcls, hsys⟩ | ⟨hdata, hcls, hsys⟩ | ⟨hdata, hcls, hsys⟩
  all_goals simp only [ne_eq, ← dataRow_matches_iff] at hdata
  · exact ⟨dataRow, by simp [wireTable, hdata, hnoChannel hcls, hnoSystem hsys]⟩
  · obtain ⟨r, hr⟩ := hchannel hcls
    exact ⟨r, by simp [wireTable, hdata, hr, hnoSystem hsys]⟩
  · obtain ⟨r, hr⟩ := hsystem hsys
    exact ⟨r, by simp [wireTable, hdata, hr, hnoChannel hcls]⟩

/-- A byte decodes by whichever row of the table it matches (R72). -/
theorem decodeWire_of_matches {c : Commands} (hc : c.Conforming) {r : WireRow} {b : Byte} (hr : r ∈ wireTable c)
    (hb : r.matches b = true) : decodeWire c b = .ok (r.build b) := by
  obtain ⟨q, hq⟩ := wireTable_filter hc b
  obtain rfl : r = q := by
    have hmem : r ∈ (wireTable c).filter (fun r => r.matches b) := List.mem_filter.2 ⟨hr, hb⟩
    rwa [hq, List.mem_singleton] at hmem
  have hfind : (wireTable c).find? (fun r => r.matches b) = some r := by rw [← List.head?_filter, hq]; rfl
  rw [decodeWire, hfind]

/-- The row by which a byte decodes. -/
theorem decodeWire_eq_ok {c : Commands} {b : Byte} {i : Instr} (h : decodeWire c b = .ok i) :
    ∃ r ∈ wireTable c, r.matches b = true ∧ r.build b = i := by
  unfold decodeWire at h
  split at h
  next r hfind =>
    have hmatches := List.find?_some (p := fun r : WireRow => r.matches b) hfind
    exact ⟨r, List.mem_of_find?_eq_some hfind, hmatches, Except.ok.inj h⟩
  next => cases h

@[simp] theorem decode_wireWord (c : Commands) (b : Byte) : decode c (wireWord b) = decodeWire c b := by
  rw [wireWord, decode, decodeByte_toNat]
  rfl

/-- Settles O8: the row is the one of its kind, and the decoder takes the first row that matches. -/
theorem eachByteMatchesOneRow : Obligations.EachByteMatchesOneRow := by
  unfold Obligations.EachByteMatchesOneRow
  intro c b hc
  obtain ⟨r, hr⟩ := wireTable_filter hc b
  obtain ⟨hmem, hmatches⟩ := List.mem_filter.1 (hr ▸ List.mem_singleton_self r)
  exact ⟨r, hmem, hr, by rw [decode_wireWord, decodeWire_of_matches hc hmem hmatches]⟩

/-! ### Encoding and decoding a wire byte (R60 to R62) -/

/-- A byte is made of its class and its channel (R61). -/
theorem channelByte_classOf_channelOf : ∀ b : Byte, channelByte (classOf b) (channelOf b) = b := by decide

/-- A data byte is its payload (R60, R63). -/
theorem setWidth_dataOf : ∀ b : Byte, b.toNat < 0x80 → (dataOf b).setWidth 8 = b := by decide

/-- The top bit tells the data bytes from the command bytes (R60). -/
theorem and_0x80_eq_zero_iff : ∀ b : Byte, b &&& 0x80 = 0 ↔ b.toNat < 0x80 := by decide

theorem dataRow_matches_setWidth : ∀ d : Data7, dataRow.matches (d.setWidth 8) = true := by decide

/-- The byte that encodes an instruction of a channel row is its class and its channel (R61, R66). -/
theorem encode_channelRow {c : Commands} {r : WireRow} (hr : r ∈ channelRows c) (b : Byte) :
    encode c (r.build b) = wireWord (channelByte r.pattern (channelOf b)) := by
  simp only [channelRows, List.mem_cons, List.not_mem_nil, or_false] at hr
  rcases hr with rfl | rfl | rfl | rfl | rfl | rfl | rfl <;> rfl

/-- The byte that encodes an instruction of a system row is the row's own (R62, R67). -/
theorem encode_systemRow {c : Commands} {r : WireRow} (hr : r ∈ systemRows c) (b : Byte) :
    encode c (r.build b) = wireWord r.pattern := by
  simp only [systemRows, List.mem_cons, List.not_mem_nil, or_false] at hr
  rcases hr with rfl | rfl | rfl | rfl | rfl | rfl | rfl | rfl | rfl | rfl | rfl | rfl | rfl | rfl | rfl | rfl <;> rfl

/-- A byte of a row is the encoding of the instruction that the row builds from it. -/
theorem encode_build {c : Commands} {r : WireRow} (hr : r ∈ wireTable c) {b : Byte} (hb : r.matches b = true) :
    encode c (r.build b) = wireWord b := by
  rcases List.mem_cons.1 hr with rfl | hr
  · exact congrArg wireWord (setWidth_dataOf b ((and_0x80_eq_zero_iff b).1 ((dataRow_matches_iff b).1 hb)))
  rcases List.mem_append.1 hr with hr | hr
  · rw [matches_of_mem_channelRows hr] at hb
    rw [encode_channelRow hr, eq_of_beq hb, channelByte_classOf_channelOf]
  · rw [matches_of_mem_systemRows hr] at hb
    rw [encode_systemRow hr, eq_of_beq hb]

/-- The data byte of a payload decodes to it (R60). -/
theorem decodeWire_data {c : Commands} (hc : c.Conforming) (d : Data7) :
    decodeWire c (d.setWidth 8) = .ok (.data d) := by
  rw [decodeWire_of_matches hc List.mem_cons_self (dataRow_matches_setWidth d)]
  exact congrArg (fun d => Except.ok (Instr.data d)) (dataOf_setWidth d)

/-- A command byte made of the class of a channel row decodes to the row's instruction of the channel (R66). -/
theorem decodeWire_channelByte {c : Commands} (hc : c.Conforming) {cls : Byte} {mk : Nibble → Instr}
    (hr : ⟨0xF0, cls, fun b => mk (channelOf b)⟩ ∈ channelRows c) (ch : Nibble) :
    decodeWire c (channelByte cls ch) = .ok (mk ch) := by
  obtain ⟨-, hcls, hch⟩ :=
    channelByte_of_class cls ((channelRows_patterns hc).subset (List.mem_map_of_mem hr)) ch
  calc decodeWire c (channelByte cls ch)
    _ = .ok (mk (channelOf (channelByte cls ch))) := decodeWire_of_mem_channelRows hc hr hcls
    _ = .ok (mk ch) := by rw [hch]

/-- The byte of a system row decodes to the row's instruction (R67, R73). -/
theorem decodeWire_systemByte {c : Commands} (hc : c.Conforming) {b : Byte} {i : Instr}
    (hr : ⟨0xFF, b, fun _ => i⟩ ∈ systemRows c) : decodeWire c b = .ok i :=
  decodeWire_of_matches hc (List.mem_cons_of_mem _ (List.mem_append_right _ hr))
    ((matches_of_mem_systemRows hr b).trans (beq_self_eq_true b))

/-! ### Encoding and decoding a host operation (R70) -/

/-- A payload is accepted exactly when its numbers are bytes, and as those bytes. -/
theorem decodeBytes_eq_ok_iff (ns : List Nat) (bs : List Byte) :
    decodeBytes ns = .ok bs ↔ bs.map BitVec.toNat = ns := by
  constructor
  · induction ns generalizing bs with
    | nil => rintro ⟨⟩; rfl
    | cons n ns ih =>
      intro h
      cases hn : decodeByte n with
      | error r => simp [decodeBytes, hn] at h
      | ok b =>
        cases hns : decodeBytes ns with
        | error r => simp [decodeBytes, hn, hns, Except.map] at h
        | ok rest =>
          obtain rfl : b :: rest = bs := by simpa [decodeBytes, hn, hns, Except.map] using h
          rw [List.map_cons, ih rest hns, (decodeByte_eq_ok_iff n b).1 hn]
  · rintro rfl
    exact decodeBytes_toNat bs

theorem map_eq_ok_iff {ε α β : Type} {x : Except ε α} {f : α → β} {y : β} :
    x.map f = .ok y ↔ ∃ a, x = .ok a ∧ f a = y := by
  cases x <;> simp [Except.map]

theorem bind_eq_ok_iff {ε α β : Type} {x : Except ε α} {f : α → Except ε β} {y : β} :
    x.bind f = .ok y ↔ ∃ a, x = .ok a ∧ f a = .ok y := by
  cases x <;> simp [Except.bind]

/-- A pair that the decoder accepts is the encoding of the operation it reads. -/
theorem encode_of_decodeOp (c : Commands) {hop : Nat} {operands : List Nat} {i : Instr}
    (h : decodeOp hop operands = .ok i) : encode c i = .op hop operands := by
  unfold decodeOp at h
  split at h
  case h_9 hop operands _ _ _ _ _ _ _ _ =>
    split at h <;> cases h
  all_goals
    simp only [map_eq_ok_iff, bind_eq_ok_iff, decodeByte_eq_ok_iff, decodeValue_eq_ok_iff, decodeHandler_eq_ok_iff,
      decodeBytes_eq_ok_iff, Except.ok.injEq] at h
  · obtain ⟨b, rfl, rfl⟩ := h; rfl
  · obtain ⟨key, rfl, h, rfl, rfl⟩ := h; rfl
  · obtain ⟨key, rfl, rfl⟩ := h; rfl
  · obtain ⟨pin, rfl, value, rfl, rfl⟩ := h; rfl
  · obtain ⟨port, rfl, value, rfl, rfl⟩ := h; rfl
  · obtain ⟨cmd, rfl, payload, rfl, rfl⟩ := h; rfl
  · obtain rfl := h; rfl
  · obtain rfl := h; rfl

/-- Settles O5: a wire byte is of the row of its instruction, and each operand of a host operation decodes to itself. -/
theorem decodeEncode : Obligations.DecodeEncode := by
  unfold Obligations.DecodeEncode
  intro c i hc
  cases i with
  | data d => simpa [encode] using decodeWire_data hc d
  | analogMessage ch | digitalMessage ch | setPinMode ch | reportAnalog ch | reportDigital ch | unrecognizedClass80 ch
  | unrecognizedClassB0 ch =>
    rw [encode, decode_wireWord]
    exact decodeWire_channelByte hc (by simp [channelRows]) ch
  | feed b => simp [encode, decode, decodeOp, Except.map]
  | attach key h => simp [encode, decode, decodeOp, Except.map, Except.bind]
  | detach key => simp [encode, decode, decodeOp, Except.map]
  | encAnalog pin value | encDigital port value => simp [encode, decode, decodeOp, Except.map, Except.bind]
  | encExtended cmd payload => simp [encode, decode, decodeOp, Except.map, Except.bind]
  | encVersion | readDiag => rfl
  | _ =>
    rw [encode, decode_wireWord]
    exact decodeWire_systemByte hc (by simp [systemRows])

/-- Settles O6: a wire byte is the encoding of what its row builds, and a pair that of the operation it reads. -/
theorem encodeDecode : Obligations.EncodeDecode := by
  unfold Obligations.EncodeDecode
  intro c w i hc h
  cases w with
  | wire n =>
    obtain ⟨b, hn, hdecode⟩ := bind_eq_ok_iff.1 h
    obtain rfl := (decodeByte_eq_ok_iff n b).1 hn
    obtain ⟨r, hr, hmatches, rfl⟩ := decodeWire_eq_ok hdecode
    exact encode_build hr hmatches
  | op hop operands => exact encode_of_decodeOp c h

/-! ### The words that the ports admit (R71, R152) -/

theorem exists_byte_of_isByte {n : Nat} (h : isByte n = true) : ∃ b : Byte, b.toNat = n :=
  ⟨BitVec.ofNatLT n (of_decide_eq_true h), BitVec.toNat_ofNatLT n _⟩

theorem exists_value_of_isValue14 {n : Nat} (h : isValue14 n = true) : ∃ v : Value14, v.toNat = n :=
  ⟨BitVec.ofNatLT n (of_decide_eq_true h), BitVec.toNat_ofNatLT n _⟩

theorem exists_bytes_of_all_isByte {ns : List Nat} (h : ns.all isByte = true) :
    ∃ bs : List Byte, bs.map BitVec.toNat = ns := by
  induction ns with
  | nil => exact ⟨[], rfl⟩
  | cons n ns ih =>
    rw [List.all_cons, Bool.and_eq_true] at h
    obtain ⟨b, rfl⟩ := exists_byte_of_isByte h.1
    obtain ⟨bs, rfl⟩ := ih h.2
    exact ⟨b :: bs, rfl⟩

/-- A word that the ports admit is a wire byte or the encoding of a host operation (R70, R71). -/
theorem wellFormed_cases {w : PortWord} (h : w.wellFormed = true) :
    (∃ b, w = wireWord b) ∨ ∃ i, ∀ c, encode c i = w := by
  unfold PortWord.wellFormed at h
  split at h
  next n =>
    obtain ⟨b, rfl⟩ := exists_byte_of_isByte h
    exact .inl ⟨b, rfl⟩
  right
  split at h
  next b =>
    obtain ⟨b, rfl⟩ := exists_byte_of_isByte h
    exact ⟨.feed b, fun _ => rfl⟩
  next key code =>
    obtain ⟨hkey, hcode⟩ := Bool.and_eq_true_iff.1 h
    obtain ⟨key, rfl⟩ := exists_byte_of_isByte hkey
    exact ⟨.attach key ⟨code, hcode⟩, fun _ => rfl⟩
  next key =>
    obtain ⟨key, rfl⟩ := exists_byte_of_isByte h
    exact ⟨.detach key, fun _ => rfl⟩
  next pin value =>
    obtain ⟨hpin, hvalue⟩ := Bool.and_eq_true_iff.1 h
    obtain ⟨pin, rfl⟩ := exists_byte_of_isByte hpin
    obtain ⟨value, rfl⟩ := exists_value_of_isValue14 hvalue
    exact ⟨.encAnalog pin value, fun _ => rfl⟩
  next port value =>
    obtain ⟨hport, hvalue⟩ := Bool.and_eq_true_iff.1 h
    obtain ⟨port, rfl⟩ := exists_byte_of_isByte hport
    obtain ⟨value, rfl⟩ := exists_value_of_isValue14 hvalue
    exact ⟨.encDigital port value, fun _ => rfl⟩
  next cmd payload =>
    obtain ⟨hcmd, hpayload⟩ := Bool.and_eq_true_iff.1 h
    obtain ⟨cmd, rfl⟩ := exists_byte_of_isByte hcmd
    obtain ⟨payload, rfl⟩ := exists_bytes_of_all_isByte hpayload
    exact ⟨.encExtended cmd payload, fun _ => rfl⟩
  next => exact ⟨.encVersion, fun _ => rfl⟩
  next => exact ⟨.readDiag, fun _ => rfl⟩
  next => exact absurd h (by decide)

/-- The encoding of every instruction is a word that the ports admit. -/
theorem encode_wellFormed (i : Instr) : Laws.EncodeAdmitted.Statement i := by
  cases i with
  | feed b => exact Laws.EncodeAdmitted.feed b
  | attach key h => exact Laws.EncodeAdmitted.attach key h
  | detach key => exact Laws.EncodeAdmitted.detach key
  | encAnalog pin value => exact Laws.EncodeAdmitted.encAnalog pin value
  | encDigital port value => exact Laws.EncodeAdmitted.encDigital port value
  | encExtended cmd payload => exact Laws.EncodeAdmitted.encExtended cmd payload
  | encVersion => exact Laws.EncodeAdmitted.encVersion
  | readDiag => exact Laws.EncodeAdmitted.readDiag
  | _ => exact fun _ => Laws.EncodeAdmitted.of_byte _

/-- Settles O7: an accepted word is an encoding, which the ports admit; an admitted word is a byte, which has its row,
or the encoding of an operation. -/
theorem decodeAcceptsExactlyWellFormed : Obligations.DecodeAcceptsExactlyWellFormed := by
  unfold Obligations.DecodeAcceptsExactlyWellFormed
  intro c w hc
  constructor
  · rintro ⟨i, hdecode⟩
    rw [← encodeDecode c w i hc hdecode]
    exact encode_wellFormed i c
  · intro h
    rcases wellFormed_cases h with ⟨b, rfl⟩ | ⟨i, hencode⟩
    · obtain ⟨r, -, -, hdecode⟩ := eachByteMatchesOneRow c b hc
      exact ⟨r.build b, hdecode⟩
    · exact ⟨i, by rw [← hencode c, decodeEncode c i hc]⟩

/-! ### Words and listings written out (R64, R75) -/

/-- Settles O9: each of the ten words is the encoding of the instruction it stands for. -/
theorem specWordsDecode : Obligations.SpecWordsDecode := by
  unfold Obligations.SpecWordsDecode
  have h := fun i => decodeEncode Commands.default i Machine.default_conforming
  exact ⟨h (.data 0x42), h (.analogMessage 3), h (.reportDigital 5), h (.unrecognizedClassB0 1), h .endSysex,
    h .unrecognizedFA, h (.feed 0x93), h (.attach 0x90 HandlerId.first), h (.encAnalog 3 133),
    h (.encExtended 1 [10, 20, 30])⟩

/-- The low and the high seven bits of a value, whose bytes are the two data bytes of its message (R43, R69). -/
theorem exists_data7_of_value (v : Value14) :
    ∃ lo hi : Data7, v.toNat = lo.toNat + 128 * hi.toNat ∧ lowByte v = lo.setWidth 8 ∧ highByte v = hi.setWidth 8 := by
  have hv := v.isLt
  have hlow := toNat_lowByte v
  have hhigh := toNat_highByte v
  refine ⟨dataOf (lowByte v), dataOf (highByte v), ?_, (setWidth_dataOf _ ?_).symm, (setWidth_dataOf _ ?_).symm⟩
  · simp only [dataOf, BitVec.toNat_setWidth]
    omega
  · omega
  · omega

/-- Settles O10: each byte of a listing is the encoding of one instruction of its message. -/
theorem listingsDecodeToTheirMessages : Obligations.ListingsDecodeToTheirMessages := by
  unfold Obligations.ListingsDecodeToTheirMessages
  intro c ch v d cmd data hc
  obtain ⟨lo, hi, hv, hlow, hhigh⟩ := exists_data7_of_value v
  have hbyte := fun i => decodeEncode c i hc
  have hdata : ∀ d : Data7, decode c (wireWord (d.setWidth 8)) = .ok (.data d) := fun d => hbyte (.data d)
  have htwo : ∀ cls i, decode c (wireWord (channelByte cls ch)) = .ok i →
      (channelMessage cls ch v).map (fun b => decode c (wireWord b)) = [.ok i, .ok (.data lo), .ok (.data hi)] := by
    intro cls i hstart
    simp only [channelMessage, hlow, hhigh, List.map_cons, List.map_nil, hstart, hdata]
  have hone : ∀ cls i, decode c (wireWord (channelByte cls ch)) = .ok i →
      [channelByte cls ch, d.setWidth 8].map (fun b => decode c (wireWord b)) = [.ok i, .ok (.data d)] := by
    intro cls i hstart
    simp only [List.map_cons, List.map_nil, hstart, hdata]
  have hstart : decode c (wireWord Cmd.startSysex) = .ok .startSysex := hbyte .startSysex
  have hend : decode c (wireWord Cmd.endSysex) = .ok .endSysex := hbyte .endSysex
  refine ⟨lo, hi, hv, htwo _ _ (hbyte (.analogMessage ch)), htwo _ _ (hbyte (.digitalMessage ch)),
    htwo _ _ (hbyte (.setPinMode ch)), hone _ _ (hbyte (.reportAnalog ch)), hone _ _ (hbyte (.reportDigital ch)), ?_⟩
  simp only [Listing.bytes, sysexMessage, List.map_append, List.map_cons, List.map_nil, List.map_map,
    Function.comp_def, hstart, hdata, hend]

/-! ### The command constants (R8, R9) -/

theorem mem_systemConstants_iff : ∀ k : Byte, k ∈ systemConstants ↔ 0xF0 ≤ k.toNat := by decide

theorem mem_channelConstants_iff : ∀ k : Byte,
    k ∈ channelConstants ↔ k.toNat % 16 = 0 ∧ 0x80 ≤ k.toNat ∧ k.toNat ≤ 0xE0 := by decide

/-- The four channel-command constants that an instance assigns (R9). -/
def Commands.assignedClasses (c : Commands) : List Byte :=
  [c.digitalMessage, c.setPinMode, c.reportAnalog, c.reportDigital]

/-- ANALOG_MESSAGE is fixed, so the constraints on the five classes are constraints on the other four. -/
theorem fixedClasses_conform_iff (c : Commands) :
    ((∀ k ∈ c.fixedClasses, k ∈ channelConstants) ∧ c.fixedClasses.Nodup) ↔
      (∀ k ∈ c.assignedClasses, k ∈ channelConstants ∧ k ≠ 0x90) ∧ c.assignedClasses.Nodup := by
  have hfixed : c.fixedClasses = 0x90 :: c.assignedClasses := rfl
  have hmem : 0x90 ∈ channelConstants := by decide
  have hnot : 0x90 ∉ c.assignedClasses ↔ ∀ k ∈ c.assignedClasses, k ≠ 0x90 := by
    exact ⟨fun h k hk he => h (he ▸ hk), fun h hk => h _ hk rfl⟩
  rw [hfixed, List.forall_mem_cons, List.nodup_cons, hnot, forall₂_and]
  tauto

/-- Three of the system constants are fixed, so their constraints are constraints on REPORT_VERSION. -/
theorem systemCommands_conform_iff (c : Commands) :
    ((∀ k ∈ c.systemCommands, k ∈ systemConstants) ∧ c.systemCommands.Nodup) ↔
      0xF0 ≤ c.reportVersion.toNat ∧ c.reportVersion ≠ 0xF0 ∧ c.reportVersion ≠ 0xF7 ∧ c.reportVersion ≠ 0xFF := by
  have hmem : (∀ k ∈ c.systemCommands, k ∈ systemConstants) ↔ c.reportVersion ∈ systemConstants := by
    simp only [Commands.systemCommands, List.forall_mem_cons]
    exact ⟨fun ⟨_, _, h, _⟩ => h, fun h => ⟨by decide, by decide, h, by decide, List.forall_mem_nil _⟩⟩
  have hnodup : ∀ v ∈ systemConstants, [0xF0, 0xF7, v, 0xFF].Nodup ↔ v ≠ 0xF0 ∧ v ≠ 0xF7 ∧ v ≠ 0xFF := by decide
  rw [hmem, ← mem_systemConstants_iff]
  exact and_congr_right (hnodup c.reportVersion)

/-- Settles O54: both halves of R9's constraints, with those on the fixed constants met. -/
theorem conformingAssignments : Obligations.ConformingAssignments := by
  unfold Obligations.ConformingAssignments
  refine ⟨fun c => ?_, rfl, Machine.default_conforming⟩
  rw [Commands.Conforming, ← and_assoc, fixedClasses_conform_iff, systemCommands_conform_iff]
  simp only [mem_channelConstants_iff, Commands.assignedClasses, List.nodup_cons, List.mem_cons, List.not_mem_nil,
    or_false, not_or, and_assoc, not_false_eq_true, List.nodup_nil, true_and, ne_eq]

end Sys2Proof

/-! PROOFS. FEED and the wire bytes (40_frame_decoder.md sections 1, 4 and 7): each wire instruction is the FEED of its
byte, and what one FEED can put out and write. -/

namespace Sys2Proof.Machine

/-! ### What a FEED calls (R80, R89) -/

/-- A FEED classifies its byte, unless the byte is data of a message or the end of an extended one (R80). -/
theorem feedByte_beginStep_cases (b : Byte) (s : State) :
    ((mode s.P = .idle ∨ 0x80 ≤ b.toNat) ∧ feedByte b (beginStep s) = classifyAndStart b (classified s)) ∨
    (mode s.P = .fixed ∧ b.toNat < 0x80 ∧ feedByte b (beginStep s) = fixedData (dataOf b) (beginStep s)) ∨
    (mode s.P = .sysex ∧ b.toNat < 0x80 ∧ feedByte b (beginStep s) = sysexData (dataOf b) (beginStep s)) ∨
    (mode s.P = .sysex ∧ b = 0xF7 ∧ feedByte b (beginStep s) = completeSysex (beginStep s)) := by
  by_cases hend : mode s.P = .sysex ∧ b = 0xF7
  · obtain ⟨hm, rfl⟩ := hend
    exact .inr (.inr (.inr ⟨hm, rfl, feedByte_endSysex_of_sysex (s := beginStep s) hm⟩))
  by_cases hb : b.toNat < 0x80
  · cases hm : mode s.P with
    | idle =>
      rw [classified_of_idle hm]
      exact .inl ⟨.inl rfl, feedByte_of_idle b (s := beginStep s) hm⟩
    | fixed => exact .inr (.inl ⟨rfl, hb, feedByte_data_of_fixed (s := beginStep s) hb hm⟩)
    | sysex => exact .inr (.inr (.inl ⟨rfl, hb, feedByte_data_of_sysex (s := beginStep s) hb hm⟩))
  · have hcommand : 0x80 ≤ b.toNat := Nat.le_of_not_lt hb
    exact .inl ⟨.inr hcommand, feedByte_beginStep_of_command hcommand fun hm he => hend ⟨hm, he⟩⟩

/-- What classification does to a byte, and when (R89). -/
theorem classifyAndStart_cases_of_class (b : Byte) (s : State) :
    (commandClass b ∈ s.cfg.cmds.twoByteClasses ∧
      classifyAndStart b s = start (commandClass b) (channelOf b) 2 s) ∨
    (commandClass b ∈ s.cfg.cmds.oneByteClasses ∧
      classifyAndStart b s = start (commandClass b) (channelOf b) 1 s) ∨
    (commandClass b = Cmd.systemReset ∧ classifyAndStart b s = wireReset s) ∨
    (commandClass b = s.cfg.cmds.reportVersion ∧ classifyAndStart b s = announce s) ∨
    (commandClass b = Cmd.startSysex ∧ classifyAndStart b s = beginSysex s) ∨
    classifyAndStart b s = drop .unrecognized s := by
  unfold classifyAndStart
  split_ifs with htwo hone hreset hversion hstart
  · exact .inl ⟨htwo, rfl⟩
  · exact .inr (.inl ⟨hone, rfl⟩)
  · exact .inr (.inr (.inl ⟨hreset, rfl⟩))
  · exact .inr (.inr (.inr (.inl ⟨hversion, rfl⟩)))
  · exact .inr (.inr (.inr (.inr (.inl ⟨hstart, rfl⟩))))
  · exact .inr (.inr (.inr (.inr (.inr rfl))))

/-! ### Classes of bytes (R68) -/

/-- A byte whose command class is a system byte is that byte. -/
theorem commandClass_eq_self_of_system : ∀ b : Byte, commandClass b ∈ systemConstants → commandClass b = b := by decide

/-- A byte whose command class is a class of a channel command has that class. -/
theorem commandClass_eq_classOf_of_channel : ∀ b : Byte,
    commandClass b ∈ channelConstants → commandClass b = classOf b := by decide

/-- A byte with the class of a channel command is a command byte of that class. -/
theorem commandClass_of_classOf : ∀ b : Byte,
    classOf b ∈ channelConstants → 0x80 ≤ b.toNat ∧ commandClass b = classOf b := by decide

/-- The class of a data byte is that of no command. -/
theorem commandClass_of_data : ∀ b : Byte,
    b.toNat < 0x80 → commandClass b ∉ channelConstants ∧ commandClass b ∉ systemConstants := by decide

/-- No class of a channel command is a system byte. -/
theorem not_mem_systemConstants_of_channel : ∀ k ∈ channelConstants, k ∉ systemConstants := by decide

section
variable {c : Commands} (hc : c.Conforming)
include hc

/-- What is recognized is a class of a channel command in use or a system command (R9). -/
theorem Recognized.cases {k : Byte} (h : Recognized c k) :
    (k ∈ channelConstants ∧ k ∈ c.fixedClasses) ∨ (k ∈ systemConstants ∧ k ∈ c.systemCommands ∧ k ≠ Cmd.endSysex) := by
  obtain ⟨-, -, hend, -⟩ := reportVersion_of_conforming hc
  rcases h with h | h
  · exact .inl ⟨hc.1 k h, h⟩
  · have hmem : k ∈ c.systemCommands := by
      simp only [Commands.systemCommands, List.mem_cons, List.not_mem_nil, or_false] at h ⊢
      tauto
    refine .inr ⟨hc.2.2.1 k hmem, hmem, ?_⟩
    simp only [List.mem_cons, List.not_mem_nil, or_false] at h
    rcases h with rfl | rfl | rfl
    · decide
    · exact hend
    · decide

/-- The rows of the classes that no command uses are not recognized (R73). -/
theorem not_recognized_of_unassigned_class {k : Byte} (hk : k ∈ [c.class80, c.classB0]) : ¬ Recognized c k := by
  have hperm := perm_classes hc
  have hmem : k ∈ channelConstants := hperm.subset (List.mem_append_right _ hk)
  have hdisjoint := List.disjoint_of_nodup_append (hperm.nodup_iff.2 (by decide))
  intro h
  rcases h.cases hc with ⟨-, hfixed⟩ | ⟨hsystem, -⟩
  · exact hdisjoint hfixed hk
  · exact not_mem_systemConstants_of_channel k hmem hsystem

/-- The rows of the system bytes that no command uses are not recognized (R73). -/
theorem not_recognized_of_unassigned_system {k : Byte} (hk : k ∈ unassignedSystem.map c.systemRow) :
    k ∈ systemConstants ∧ k ≠ Cmd.endSysex ∧ ¬ Recognized c k := by
  have hperm := perm_system hc
  have hmem : k ∈ systemConstants := hperm.subset (List.mem_append_right _ hk)
  have hdisjoint := List.disjoint_of_nodup_append (hperm.nodup_iff.2 (by decide))
  refine ⟨hmem, ?_, fun h => ?_⟩
  · rintro rfl
    exact hdisjoint (by simp [Commands.systemCommands]) hk
  · rcases h.cases hc with ⟨hchannel, -⟩ | ⟨-, hsystem, -⟩
    · exact not_mem_systemConstants_of_channel k hchannel hmem
    · exact hdisjoint hsystem hk

end

/-! ### Each wire instruction is the FEED of its byte (R80, R89) -/

/-- FEED of a command byte that does not end an extended message. -/
theorem exec_feed_of_command {b : Byte} {s : State} (hb : 0x80 ≤ b.toNat) (hend : b ≠ Cmd.endSysex) :
    exec (.feed b) s = .next (classifyAndStart b (classified s)) := by
  rw [exec_feed, execFeed, feedByte_beginStep_of_command hb fun _ => hend]

/-- FEED of a byte that classification does not recognize. -/
theorem exec_feed_of_not_recognized {b : Byte} {s : State} (hb : 0x80 ≤ b.toNat) (hend : b ≠ Cmd.endSysex)
    (h : ¬ Recognized s.cfg.cmds (commandClass b)) :
    exec (.feed b) s = .next (unrecognizedAfter (classified s)) := by
  rw [exec_feed_of_command hb hend, classifyAndStart_of_not_recognized (by rwa [classified_cfg])]
  rfl

section
variable {s : State} (hc : s.cfg.cmds.Conforming)
include hc

/-- The row DATA (R82, R98, R102). -/
theorem exec_data_eq_feed {b : Byte} (hb : b.toNat < 0x80) : exec (.data (dataOf b)) s = exec (.feed b) s := by
  have hend : b ≠ Cmd.endSysex := by
    rintro rfl
    exact absurd hb (by decide)
  rw [exec_data, execData, exec_feed, execFeed]
  cases hm : mode s.P with
  | idle =>
    have hnot : ¬ Recognized s.cfg.cmds (commandClass b) := fun h => by
      obtain ⟨hchannel, hsystem⟩ := commandClass_of_data b hb
      rcases h.cases hc with ⟨h, -⟩ | ⟨h, -⟩
      · exact hchannel h
      · exact hsystem h
    rw [feedByte_of_idle b (s := beginStep s) hm, classifyAndStart_of_not_recognized (s := beginStep s) hnot]
  | fixed => rw [feedByte_data_of_fixed (s := beginStep s) hb hm]
  | sysex => rw [feedByte_data_of_sysex (s := beginStep s) hb hm]

/-- The channel rows (R88 to R94, R101). -/
theorem exec_channelRow_eq_feed {r : WireRow} (hr : r ∈ channelRows s.cfg.cmds) {b : Byte}
    (hb : classOf b = r.pattern) : exec (r.build b) s = exec (.feed b) s := by
  have hmem : classOf b ∈ channelConstants := by
    rw [hb]
    exact (channelRows_patterns hc).subset (List.mem_map_of_mem hr)
  obtain ⟨hcommand, hclass⟩ := commandClass_of_classOf b hmem
  rw [hb] at hclass
  have hend : b ≠ Cmd.endSysex := by
    rintro rfl
    exact absurd hmem (by decide)
  have htwo : r.pattern ∈ s.cfg.cmds.twoByteClasses →
      exec (.feed b) s = .next (start r.pattern (channelOf b) 2 (commandByte s)) := fun h => by
    rw [exec_feed_of_command hcommand hend, classifyAndStart, classified_cfg, hclass, if_pos h, commandByte_eq]
  have hone : r.pattern ∈ s.cfg.cmds.oneByteClasses →
      exec (.feed b) s = .next (start r.pattern (channelOf b) 1 (commandByte s)) := fun h => by
    rw [exec_feed_of_command hcommand hend, classifyAndStart, classified_cfg, hclass,
      if_neg (not_mem_twoByteClasses_of_mem_oneByteClasses hc h), if_pos h, commandByte_eq]
  have hnone : r.pattern ∈ [s.cfg.cmds.class80, s.cfg.cmds.classB0] →
      exec (.feed b) s = .next (unrecognizedAfter (classified s)) := fun h =>
    exec_feed_of_not_recognized hcommand hend (hclass ▸ not_recognized_of_unassigned_class hc h)
  simp only [channelRows, List.mem_cons, List.not_mem_nil, or_false] at hr
  rcases hr with rfl | rfl | rfl | rfl | rfl | rfl | rfl
  · exact (htwo (by simp [Commands.twoByteClasses])).symm
  · exact (htwo (by simp [Commands.twoByteClasses])).symm
  · exact (htwo (by simp [Commands.twoByteClasses])).symm
  · exact (hone (by simp [Commands.oneByteClasses])).symm
  · exact (hone (by simp [Commands.oneByteClasses])).symm
  · rw [hnone (by simp), unassignedCommandDropped s (channelOf b) _ (.inl (by simp))]
  · rw [hnone (by simp), unassignedCommandDropped s (channelOf b) _ (.inl (by simp))]

/-- START_SYSEX (R97). -/
theorem exec_startSysex_eq_feed : exec .startSysex s = exec (.feed Cmd.startSysex) s := by
  obtain ⟨-, hstart, -, -⟩ := reportVersion_of_conforming hc
  have hnot : commandClass Cmd.startSysex ∉ s.cfg.cmds.fixedClasses := fun h => absurd (hc.1 _ h) (by decide)
  have htwo : commandClass Cmd.startSysex ∉ s.cfg.cmds.twoByteClasses := fun h => hnot (List.mem_append_left _ h)
  have hone : commandClass Cmd.startSysex ∉ s.cfg.cmds.oneByteClasses := fun h => hnot (List.mem_append_right _ h)
  have hversion : commandClass Cmd.startSysex ≠ s.cfg.cmds.reportVersion := hstart.symm
  rw [exec_feed_of_command (by decide) (by decide), classifyAndStart, classified_cfg, if_neg htwo, if_neg hone,
    if_neg (by decide), if_neg hversion, if_pos (by decide), ← commandByte_eq]
  rfl

/-- END_SYSEX (R99, R100). -/
theorem exec_endSysex_eq_feed : exec .endSysex s = exec (.feed Cmd.endSysex) s := by
  by_cases hm : mode s.P = .sysex
  · rw [exec_endSysex, execEndSysex, hm, exec_feed, execFeed]
    exact congrArg Host.Outcome.next (feedByte_endSysex_of_sysex (s := beginStep s) hm).symm
  · have hnot : ¬ Recognized s.cfg.cmds (commandClass Cmd.endSysex) := fun h => by
      rcases h.cases hc with ⟨h, -⟩ | ⟨-, -, h⟩
      · exact absurd h (by decide)
      · exact absurd h (by decide)
    rw [exec_endSysex_of_not_sysex hm, exec_feed, execFeed,
      feedByte_beginStep_of_command (by decide) fun h => absurd h hm,
      classifyAndStart_of_not_recognized (by rwa [classified_cfg])]
    rfl

/-- SYSTEM_RESET (R95). -/
theorem exec_systemReset_eq_feed : exec .systemReset s = exec (.feed 0xFF) s := by
  rw [exec_feed_of_command (by decide) (by decide), classifyAndStart_systemReset (by rwa [classified_cfg]),
    exec_systemReset_eq]

/-- The system rows (R95 to R101). -/
theorem exec_systemRow_eq_feed {r : WireRow} (hr : r ∈ systemRows s.cfg.cmds) (b : Byte) :
    exec (r.build b) s = exec (.feed r.pattern) s := by
  have hnone : r.pattern ∈ unassignedSystem.map s.cfg.cmds.systemRow →
      exec (.feed r.pattern) s = .next (unrecognizedAfter (classified s)) := fun h => by
    obtain ⟨hmem, hend, hnot⟩ := not_recognized_of_unassigned_system hc h
    obtain ⟨hcommand, hself, -⟩ := systemConstants_class _ hmem
    exact exec_feed_of_not_recognized hcommand hend (by rwa [hself])
  simp only [systemRows, List.mem_cons, List.not_mem_nil, or_false] at hr
  rcases hr with rfl | rfl | rfl | rfl | hr
  · exact exec_startSysex_eq_feed hc
  · exact exec_endSysex_eq_feed hc
  · rw [exec_feed_reportVersion hc, ← commandByte_eq]
    rfl
  · exact exec_systemReset_eq_feed hc
  · rcases hr with rfl | rfl | rfl | rfl | rfl | rfl | rfl | rfl | rfl | rfl | rfl | rfl <;>
      rw [hnone (by simp [unassignedSystem])] <;>
      exact unassignedCommandDropped s 0 _ (.inl (by simp))

/-- The instruction that a byte decodes to has the effect of the FEED of it. -/
theorem exec_eq_feed_of_decodeWire {b : Byte} {i : Instr} (h : decodeWire s.cfg.cmds b = .ok i) :
    exec i s = exec (.feed b) s := by
  obtain ⟨r, hr, hmatches, rfl⟩ := decodeWire_eq_ok h
  rcases List.mem_cons.1 hr with rfl | hr
  · exact exec_data_eq_feed hc ((and_0x80_eq_zero_iff b).1 ((dataRow_matches_iff b).1 hmatches))
  rcases List.mem_append.1 hr with hr | hr
  · rw [matches_of_mem_channelRows hr] at hmatches
    exact exec_channelRow_eq_feed hc hr (eq_of_beq hmatches).symm
  · rw [matches_of_mem_systemRows hr] at hmatches
    rw [exec_systemRow_eq_feed hc hr, eq_of_beq hmatches]

end

/-- Settles O16: the byte decodes by its one row, and the row's instruction has the effect of the FEED. -/
theorem feedRunsWireByte : Obligations.FeedRunsWireByte := by
  unfold Obligations.FeedRunsWireByte
  intro b s hc
  obtain ⟨r, -, -, hdecode⟩ := eachByteMatchesOneRow s.cfg.cmds b hc
  obtain ⟨t, hfeed⟩ := exec_completes (.feed b) s
  rw [decode_wireWord] at hdecode
  exact ⟨r.build b, t, by rw [decode_wireWord, hdecode], by rw [exec_eq_feed_of_decodeWire hc hdecode, hfeed], hfeed⟩

/-! ### Every instruction that feeds a byte is a FEED of it -/

/-- An instruction feeds a byte as FEED or as the wire byte that encodes it, or it is another host operation. -/
theorem byteOf_cases (c : Commands) (i : Instr) :
    (∃ b, byteOf c i = some b ∧ (i = .feed b ∨ encode c i = wireWord b)) ∨
    (byteOf c i = none ∧ isOtherHostOp i = true) := by
  have hnumber : ∀ b : Byte, some (BitVec.ofNat 8 b.toNat) = some b := fun b => by simp
  cases i with
  | feed b => exact .inl ⟨b, rfl, .inl rfl⟩
  | attach | detach | encAnalog | encDigital | encExtended | encVersion | readDiag => exact .inr ⟨rfl, rfl⟩
  | _ => exact .inl ⟨_, hnumber _, .inr rfl⟩

/-- An instruction that feeds a byte has the effect of the FEED of it. -/
theorem exec_eq_feed_of_byteOf {i : Instr} {b : Byte} {s : State} (hc : s.cfg.cmds.Conforming)
    (h : byteOf s.cfg.cmds i = some b) : exec i s = exec (.feed b) s := by
  rcases byteOf_cases s.cfg.cmds i with ⟨b', hb', hi⟩ | ⟨hnone, -⟩
  · obtain rfl : b' = b := Option.some.inj (hb'.symm.trans h)
    rcases hi with rfl | hencode
    · rfl
    · have hdecode := decodeEncode s.cfg.cmds i hc
      rw [hencode, decode_wireWord] at hdecode
      exact exec_eq_feed_of_decodeWire hc hdecode
  · rw [hnone] at h
    cases h

/-! ### What one FEED can put out (R103) -/

/-- The table of R141 has at most two causes for a FEED, and two only as ABORTED and UNRECOGNIZED. -/
theorem feedCauses_bounded (s : State) (b : Byte) :
    (feedCauses s b).length ≤ 2 ∧ ((feedCauses s b).length = 2 → feedCauses s b = [.aborted, .unrecognized]) := by
  unfold feedCauses
  cases mode s.P with
  | idle => dsimp only; split_ifs <;> simp
  | fixed => dsimp only; split_ifs <;> simp
  | sysex => dsimp only; split_ifs <;> simp

/-- Classification gives no event and returns nothing, and puts out TX bytes for REPORT_VERSION alone (R89, R96). -/
theorem classifyAndStart_outputs {s : State} (hc : s.cfg.cmds.Conforming) (b : Byte) :
    (classifyAndStart b s).out.event = s.out.event ∧ (classifyAndStart b s).out.result = s.out.result ∧
    ((classifyAndStart b s).out.tx = s.out.tx ∨
      b = s.cfg.cmds.reportVersion ∧ (classifyAndStart b s).out.tx = s.out.tx ++ s.cfg.versionBytes) := by
  rcases classifyAndStart_cases_of_class b s with ⟨-, h⟩ | ⟨-, h⟩ | ⟨-, h⟩ | ⟨hclass, h⟩ | ⟨-, h⟩ | h <;> rw [h]
  case inr.inr.inr.inl =>
    obtain ⟨hversion, -, -, -⟩ := reportVersion_of_conforming hc
    have hself : commandClass b = b := commandClass_eq_self_of_system b (hclass ▸ hversion)
    exact ⟨rfl, rfl, .inr ⟨hself.symm.trans hclass, rfl⟩⟩
  all_goals exact ⟨rfl, rfl, .inl rfl⟩

/-- END_SYSEX in SYSEX mode puts out an event or a cause, and nothing else (R99). -/
theorem completeSysex_outputs (s : State) :
    (completeSysex s).out.tx = s.out.tx ∧ (completeSysex s).out.result = s.out.result ∧
    ((completeSysex s).out.event = s.out.event ∨ (completeSysex s).out.diag = s.out.diag) := by
  rcases completeSysex_cases s with ⟨-, h⟩ | ⟨-, -, h⟩ | ⟨-, -, h⟩ <;> rw [h]
  · exact ⟨rfl, rfl, .inl rfl⟩
  · exact ⟨rfl, rfl, .inl rfl⟩
  · exact ⟨rfl, rfl, .inr rfl⟩

/-- What a FEED puts out beside its causes: TX bytes for REPORT_VERSION alone, and an event only by itself. -/
theorem feedByte_outputs {s : State} (hc : s.cfg.cmds.Conforming) (b : Byte) :
    (feedByte b (beginStep s)).out.result = none ∧
    ((feedByte b (beginStep s)).out.tx = [] ∨
      b = s.cfg.cmds.reportVersion ∧ (feedByte b (beginStep s)).out.tx = s.cfg.versionBytes) ∧
    ((feedByte b (beginStep s)).out.event ≠ .noEvent →
      (feedByte b (beginStep s)).out.tx = [] ∧ (feedByte b (beginStep s)).out.diag = []) := by
  rcases feedByte_beginStep_cases b s with ⟨-, h⟩ | ⟨-, -, h⟩ | ⟨-, -, h⟩ | ⟨-, -, h⟩ <;> rw [h]
  · obtain ⟨hevent, hresult, htx⟩ := classifyAndStart_outputs (s := classified s) (by rwa [classified_cfg]) b
    rw [classified_tx, classified_cfg] at htx
    rw [hevent, hresult, classified_event, classified_result]
    exact ⟨rfl, htx, fun hne => absurd rfl hne⟩
  · obtain ⟨_, _, hwrites⟩ := fixedData_writes (dataOf b) (beginStep s)
    rw [hwrites]
    exact ⟨rfl, .inl rfl, fun _ => ⟨rfl, rfl⟩⟩
  · rw [sysexData_out]
    exact ⟨rfl, .inl rfl, fun _ => ⟨rfl, rfl⟩⟩
  · obtain ⟨htx, hresult, hone⟩ := completeSysex_outputs (beginStep s)
    exact ⟨hresult, .inl htx, fun hevent => ⟨htx, hone.resolve_left hevent⟩⟩

/-- Settles O33: the causes are those of the table, and the other outputs those of what a FEED calls. -/
theorem feedOutputsBounded : Obligations.FeedOutputsBounded := by
  unfold Obligations.FeedOutputsBounded
  intro s t b hc hexec
  obtain rfl := Host.Outcome.next.inj hexec
  obtain ⟨hresult, htx, hevent⟩ := feedByte_outputs hc b
  obtain ⟨hle, htwo⟩ := feedCauses_bounded s b
  rw [← feedByte_diag hc b] at hle htwo
  exact ⟨htx, hle, htwo, hevent, hresult⟩

/-! ### Which bytes write the channel and the buffers (R40, R105) -/

/-- A byte of no class in use and other than SYSTEM_RESET is classified without a write of the channel (R105). -/
theorem classifyAndStart_channel {b : Byte} {s : State} (hc : s.cfg.cmds.Conforming)
    (hclass : classOf b ∉ s.cfg.cmds.fixedClasses) (hreset : b ≠ 0xFF) :
    (classifyAndStart b s).P.channel = s.P.channel := by
  have hnot : commandClass b ∉ s.cfg.cmds.fixedClasses := fun h => by
    rw [commandClass_eq_classOf_of_channel b (hc.1 _ h)] at h
    exact hclass h
  rcases classifyAndStart_cases_of_class b s with ⟨htwo, -⟩ | ⟨hone, -⟩ | ⟨hself, -⟩ | ⟨-, h⟩ | ⟨-, h⟩ | h
  · exact absurd (List.mem_append_left _ htwo) hnot
  · exact absurd (List.mem_append_right _ hone) hnot
  · rw [commandClass_eq_self_of_system b (hself ▸ by decide)] at hself
    exact absurd hself hreset
  all_goals rw [h]; rfl

/-- A byte other than SYSTEM_RESET is classified without a write of a buffer (R40). -/
theorem classifyAndStart_buffers {b : Byte} (s : State) (hreset : b ≠ 0xFF) :
    (classifyAndStart b s).P.buf0 = s.P.buf0 ∧ (classifyAndStart b s).P.buf1 = s.P.buf1 ∧
    (classifyAndStart b s).S.buf = s.S.buf := by
  rcases classifyAndStart_cases_of_class b s with ⟨-, h⟩ | ⟨-, h⟩ | ⟨hself, -⟩ | ⟨-, h⟩ | ⟨-, h⟩ | h
  case inr.inr.inl =>
    rw [commandClass_eq_self_of_system b (hself ▸ by decide)] at hself
    exact absurd hself hreset
  all_goals rw [h]; exact ⟨rfl, rfl, rfl⟩

/-- Dispatch writes no register (R155). -/
theorem dispatch_P (k : Byte) (v : Value14) (s : State) : (dispatch k v s).P = s.P := by
  unfold dispatch
  split <;> rfl

/-- A completion leaves the channel in its register (R85). -/
theorem completeFixed_channel (s : State) : (completeFixed s).P.channel = s.P.channel := by
  unfold completeFixed
  split
  · rw [clearActive_P, dispatch_P]
  · rfl

/-- A data byte in FIXED mode keeps the channel (R83, R85). -/
theorem fixedData_channel (d : Data7) (s : State) : (fixedData d s).P.channel = s.P.channel := by
  obtain ⟨-, -, hstore⟩ := storeBuf_frame (s.P.pending - 1) d { s.P with pending := s.P.pending - 1 }
  unfold fixedData
  split
  · rw [completeFixed_channel, storeFixed_P, hstore]
  · rw [storeFixed_P, hstore]

/-- END_SYSEX in SYSEX mode writes no channel and no buffer (R99). -/
theorem completeSysex_frame (s : State) :
    (completeSysex s).P.channel = s.P.channel ∧ (completeSysex s).P.buf0 = s.P.buf0 ∧
    (completeSysex s).P.buf1 = s.P.buf1 ∧ (completeSysex s).S.buf = s.S.buf := by
  rcases completeSysex_cases s with ⟨-, h⟩ | ⟨-, -, h⟩ | ⟨-, -, h⟩ <;> rw [h] <;> exact ⟨rfl, rfl, rfl, rfl⟩

/-- Settles O35: another host operation keeps the parser, and any other instruction is the FEED of its byte. -/
theorem channelWrittenOnlyByStarts : Obligations.ChannelWrittenOnlyByStarts := by
  unfold Obligations.ChannelWrittenOnlyByStarts
  intro s t i hc hexec hbyte
  rcases byteOf_cases s.cfg.cmds i with ⟨b, hb, -⟩ | ⟨-, hother⟩
  · obtain ⟨hclass, hreset⟩ := hbyte b hb
    rw [exec_eq_feed_of_byteOf hc hb] at hexec
    obtain rfl := Host.Outcome.next.inj hexec
    rcases feedByte_beginStep_cases b s with ⟨-, h⟩ | ⟨-, -, h⟩ | ⟨-, -, h⟩ | ⟨-, -, h⟩ <;> rw [h]
    · rw [classifyAndStart_channel (by rwa [classified_cfg]) (by rwa [classified_cfg]) hreset, classified_channel]
    · exact fixedData_channel _ _
    · obtain ⟨_, h⟩ := sysexData_writes (dataOf b) (beginStep s)
      rw [h, beginStep_P]
    · exact (completeSysex_frame (beginStep s)).1
  · obtain ⟨u, hu, hkeep, -, -⟩ := exec_otherHostOp hother s
    obtain rfl : u = t := Host.Outcome.next.inj (hu.symm.trans hexec)
    rw [hkeep.P]

/-- Settles O36: another host operation keeps the registers, and any other instruction is the FEED of its byte, which
reaches a store only for a data byte in the store's mode. -/
theorem buffersWrittenOnlyByDataBytes : Obligations.BuffersWrittenOnlyByDataBytes := by
  unfold Obligations.BuffersWrittenOnlyByDataBytes
  intro s t i hc hexec hreset
  rcases byteOf_cases s.cfg.cmds i with ⟨b, hb, -⟩ | ⟨-, hother⟩
  · have hne : b ≠ 0xFF := fun he => hreset (he ▸ hb)
    rw [exec_eq_feed_of_byteOf hc hb] at hexec
    obtain rfl := Host.Outcome.next.inj hexec
    rcases feedByte_beginStep_cases b s with ⟨-, h⟩ | ⟨hm, hdata, h⟩ | ⟨hm, hdata, h⟩ | ⟨-, -, h⟩ <;> rw [h]
    · obtain ⟨h0, h1, hS⟩ := classifyAndStart_buffers (classified s) hne
      rw [h0, h1, hS, classified_buf0, classified_buf1, classified_sysexBuf]
      exact ⟨fun _ => ⟨rfl, rfl⟩, fun _ => rfl⟩
    · obtain ⟨_, _, hwrites⟩ := fixedData_writes (dataOf b) (beginStep s)
      refine ⟨fun hnot => absurd (hnot b hb hm) (Nat.not_le_of_lt hdata), fun _ => ?_⟩
      rw [hwrites, beginStep_S]
    · obtain ⟨_, hwrites⟩ := sysexData_writes (dataOf b) (beginStep s)
      refine ⟨fun _ => ?_, fun hnot => absurd (hnot b hb hm) (Nat.not_le_of_lt hdata)⟩
      rw [hwrites]
      exact ⟨rfl, rfl⟩
    · obtain ⟨-, h0, h1, hS⟩ := completeSysex_frame (beginStep s)
      exact ⟨fun _ => ⟨h0, h1⟩, fun _ => hS⟩
  · obtain ⟨u, hu, hkeep, -, -⟩ := exec_otherHostOp hother s
    obtain rfl : u = t := Host.Outcome.next.inj (hu.symm.trans hexec)
    rw [hkeep.P, hkeep.S]
    exact ⟨fun _ => ⟨rfl, rfl⟩, fun _ => rfl⟩

end Sys2Proof.Machine

/-! PROOFS. Two states side by side: which change of the state an instruction is depends on the command constants and
the mode alone, so two states that agree in them are changed alike. From it: what the registry, the handlers, the
counter and the inputs can have an effect on. -/

namespace Sys2Proof.Machine

/-! ### The change of state that an instruction is -/

/-- The changes of state that instruction `i` can be, with the command constants `c` and in a mode: those of `Effect`,
as functions of the state, so that one change can be applied to two states. -/
inductive Meaning (i : Instr) (c : Commands) : Mode → (State → State) → Prop where
  /-- A data byte in FIXED mode (R82). -/
  | fixedData (d : Data7) : Meaning i c .fixed fun s => fixedData d (beginStep s)
  /-- A data byte in SYSEX mode (R98). -/
  | sysexData (d : Data7) : Meaning i c .sysex fun s => sysexData d (beginStep s)
  /-- END_SYSEX in SYSEX mode (R99). -/
  | completeSysex : Meaning i c .sysex fun s => completeSysex (beginStep s)
  /-- A start of a 2-byte class (R90 to R92). -/
  | start2 {m : Mode} (cls : Byte) (hcls : cls ∈ c.twoByteClasses) (ch : Nibble) :
    Meaning i c m fun s => start cls ch 2 (classified s)
  /-- A start of a 1-byte class (R93, R94). -/
  | start1 {m : Mode} (cls : Byte) (hcls : cls ∈ c.oneByteClasses) (ch : Nibble) :
    Meaning i c m fun s => start cls ch 1 (classified s)
  /-- SYSTEM_RESET (R95). -/
  | wireReset {m : Mode} : Meaning i c m fun s => wireReset (classified s)
  /-- REPORT_VERSION (R96). -/
  | announce {m : Mode} : Meaning i c m fun s => announce (classified s)
  /-- START_SYSEX (R97). -/
  | beginSysex {m : Mode} : Meaning i c m fun s => beginSysex (classified s)
  /-- An unrecognized byte (R100 to R102). -/
  | unrecognized {m : Mode} : Meaning i c m fun s => drop .unrecognized (classified s)
  /-- ATTACH (R120). -/
  | attach {m : Mode} (key : Byte) (h : HandlerId) (hi : i = .attach key h) :
    Meaning i c m fun s => setSlot key (some h) (beginStep s)
  /-- DETACH (R121). -/
  | detach {m : Mode} (key : Byte) (hi : i = .detach key) : Meaning i c m fun s => setSlot key none (beginStep s)
  /-- ENC_ANALOG, ENC_DIGITAL or ENC_EXTENDED (R130 to R132). -/
  | emitTx {m : Mode} (bytes : List Byte) : Meaning i c m fun s => emitTx bytes (beginStep s)
  /-- ENC_VERSION (R133). -/
  | encVersion {m : Mode} : Meaning i c m fun s => Machine.announce (beginStep s)
  /-- READ_DIAG (R140). -/
  | readDiag {m : Mode} (hi : i = .readDiag) : Meaning i c m fun s => emitResult s.DC (beginStep s)

/-- Which change a classified byte is depends on the command constants alone (R89). -/
theorem classifyAndStart_meaning (i : Instr) (c : Commands) (m : Mode) (b : Byte) :
    ∃ F, Meaning i c m F ∧ ∀ s, s.cfg.cmds = c → classifyAndStart b (classified s) = F s := by
  by_cases htwo : commandClass b ∈ c.twoByteClasses
  · refine ⟨_, .start2 _ htwo (channelOf b), ?_⟩
    rintro s rfl
    rw [classifyAndStart, classified_cfg, if_pos htwo]
  by_cases hone : commandClass b ∈ c.oneByteClasses
  · refine ⟨_, .start1 _ hone (channelOf b), ?_⟩
    rintro s rfl
    rw [classifyAndStart, classified_cfg, if_neg htwo, if_pos hone]
  by_cases hreset : commandClass b = Cmd.systemReset
  · refine ⟨_, .wireReset, ?_⟩
    rintro s rfl
    rw [classifyAndStart, classified_cfg, if_neg htwo, if_neg hone, if_pos hreset]
  by_cases hversion : commandClass b = c.reportVersion
  · refine ⟨_, .announce, ?_⟩
    rintro s rfl
    rw [classifyAndStart, classified_cfg, if_neg htwo, if_neg hone, if_neg hreset, if_pos hversion]
  by_cases hstart : commandClass b = Cmd.startSysex
  · refine ⟨_, .beginSysex, ?_⟩
    rintro s rfl
    rw [classifyAndStart, classified_cfg, if_neg htwo, if_neg hone, if_neg hreset, if_neg hversion, if_pos hstart]
  · refine ⟨_, .unrecognized, ?_⟩
    rintro s rfl
    rw [classifyAndStart, classified_cfg, if_neg htwo, if_neg hone, if_neg hreset, if_neg hversion, if_neg hstart]

/-- Which change a FEED is depends on the command constants and the mode (R80). -/
theorem feedByte_meaning (i : Instr) (c : Commands) (m : Mode) (b : Byte) :
    ∃ F, Meaning i c m F ∧ ∀ s, s.cfg.cmds = c → mode s.P = m → feedByte b (beginStep s) = F s := by
  obtain ⟨F, hF, hclassify⟩ := classifyAndStart_meaning i c m b
  have hcommand : 0x80 ≤ b.toNat → (m = .sysex → b ≠ 0xF7) →
      ∀ s, s.cfg.cmds = c → mode s.P = m → feedByte b (beginStep s) = F s := fun hb hend s hs hm => by
    rw [feedByte_beginStep_of_command hb (hm ▸ hend), hclassify s hs]
  by_cases hb : b.toNat < 0x80
  · cases m with
    | idle =>
      refine ⟨F, hF, fun s hs hm => ?_⟩
      rw [feedByte_of_idle b (s := beginStep s) hm, ← hclassify s hs, classified_of_idle hm]
      rfl
    | fixed => exact ⟨_, .fixedData (dataOf b), fun s _ hm => feedByte_data_of_fixed (s := beginStep s) hb hm⟩
    | sysex => exact ⟨_, .sysexData (dataOf b), fun s _ hm => feedByte_data_of_sysex (s := beginStep s) hb hm⟩
  · by_cases hend : m = .sysex ∧ b = 0xF7
    · obtain ⟨rfl, rfl⟩ := hend
      exact ⟨_, .completeSysex, fun s _ hm => feedByte_endSysex_of_sysex (s := beginStep s) hm⟩
    · exact ⟨F, hF, hcommand (Nat.le_of_not_lt hb) fun hm he => hend ⟨hm, he⟩⟩

/-- Which change an instruction is depends on the command constants and the mode. -/
theorem exec_meaning (i : Instr) (c : Commands) (m : Mode) :
    ∃ F, Meaning i c m F ∧ ∀ s, s.cfg.cmds = c → mode s.P = m → exec i s = .next (F s) := by
  have htwo : ∀ j cls ch, cls ∈ c.twoByteClasses →
      (∀ s, s.cfg.cmds = c → exec j s = .next (start cls ch 2 (commandByte s))) →
      ∃ F, Meaning j c m F ∧ ∀ s, s.cfg.cmds = c → mode s.P = m → exec j s = .next (F s) := fun j cls ch hcls hexec =>
    ⟨_, .start2 cls hcls ch, fun s hs _ => by rw [hexec s hs, commandByte_eq]⟩
  have hone : ∀ j cls ch, cls ∈ c.oneByteClasses →
      (∀ s, s.cfg.cmds = c → exec j s = .next (start cls ch 1 (commandByte s))) →
      ∃ F, Meaning j c m F ∧ ∀ s, s.cfg.cmds = c → mode s.P = m → exec j s = .next (F s) := fun j cls ch hcls hexec =>
    ⟨_, .start1 cls hcls ch, fun s hs _ => by rw [hexec s hs, commandByte_eq]⟩
  cases i with
  | feed b =>
    obtain ⟨F, hF, hfeed⟩ := feedByte_meaning (.feed b) c m b
    exact ⟨F, hF, fun s hs hm => congrArg Host.Outcome.next (hfeed s hs hm)⟩
  | data d =>
    cases m with
    | idle =>
      refine ⟨_, .unrecognized, fun s _ hm => ?_⟩
      rw [exec_data_idle d hm, classified_of_idle hm]
      rfl
    | fixed => exact ⟨_, .fixedData d, fun s _ hm => by rw [exec_data, execData, hm]⟩
    | sysex => exact ⟨_, .sysexData d, fun s _ hm => by rw [exec_data, execData, hm]⟩
  | endSysex =>
    by_cases hm : m = .sysex
    · subst hm
      exact ⟨_, .completeSysex, fun s _ hm => by rw [exec_endSysex, execEndSysex, hm]⟩
    · exact ⟨_, .unrecognized, fun s _ hs => exec_endSysex_of_not_sysex (hs ▸ hm)⟩
  | analogMessage ch => exact htwo _ Cmd.analogMessage ch (by simp [Commands.twoByteClasses]) fun _ _ => rfl
  | digitalMessage ch =>
    exact htwo _ c.digitalMessage ch (by simp [Commands.twoByteClasses]) fun s hs => hs ▸ rfl
  | setPinMode ch => exact htwo _ c.setPinMode ch (by simp [Commands.twoByteClasses]) fun s hs => hs ▸ rfl
  | reportAnalog ch => exact hone _ c.reportAnalog ch (by simp [Commands.oneByteClasses]) fun s hs => hs ▸ rfl
  | reportDigital ch => exact hone _ c.reportDigital ch (by simp [Commands.oneByteClasses]) fun s hs => hs ▸ rfl
  | startSysex => exact ⟨_, .beginSysex, fun s _ _ => by rw [← commandByte_eq]; rfl⟩
  | reportVersion => exact ⟨_, .announce, fun s _ _ => by rw [← commandByte_eq]; rfl⟩
  | systemReset => exact ⟨_, .wireReset, fun s _ _ => exec_systemReset_eq s⟩
  | attach key h => exact ⟨_, .attach key h rfl, fun _ _ _ => rfl⟩
  | detach key => exact ⟨_, .detach key rfl, fun _ _ _ => rfl⟩
  | encAnalog pin value => exact ⟨_, .emitTx _, fun _ _ _ => rfl⟩
  | encDigital port value =>
    refine ⟨_, .emitTx (channelMessage c.digitalMessage (nibbleOf port) value), ?_⟩
    rintro s rfl -
    rfl
  | encExtended cmd payload => exact ⟨_, .emitTx _, fun _ _ _ => rfl⟩
  | encVersion => exact ⟨_, .encVersion, fun _ _ _ => rfl⟩
  | readDiag => exact ⟨_, .readDiag rfl, fun _ _ _ => rfl⟩
  | _ => exact ⟨_, .unrecognized, fun s _ _ => by rw [← commandByte_eq]; rfl⟩

/-! ### Extended messages in two states that have counted alike -/

/-- Two states that have counted alike both have room for a data byte, or both have none (R98). -/
theorem sysexData_alike (d : Data7) {u u' : State} (hcfg : u'.cfg = u.cfg) (hcount : u'.S.count = u.S.count) :
    (sysexData d u = { u with S := { u.S with buf := u.S.buf.set u.S.count d, count := u.S.count + 1 } } ∧
      sysexData d u' = { u' with S := { u'.S with buf := u'.S.buf.set u.S.count d, count := u.S.count + 1 } }) ∨
    (sysexData d u = { u with S := { u.S with ovf := true } } ∧
      sysexData d u' = { u' with S := { u'.S with ovf := true } }) := by
  rcases sysexData_cases d u with ⟨hroom, hu⟩ | ⟨hfull, hu⟩ <;>
    rcases sysexData_cases d u' with ⟨hroom', hu'⟩ | ⟨hfull', hu'⟩ <;> rw [hcfg, hcount] at *
  · exact .inl ⟨hu, hu'⟩
  · exact absurd hroom hfull'
  · exact absurd hroom' hfull
  · exact .inr ⟨hu, hu'⟩

/-- Two states that have counted alike complete an extended message in the same way (R99). -/
theorem completeSysex_alike {u u' : State} (hovf : u'.S.ovf = u.S.ovf) (hcount : u'.S.count = u.S.count) :
    (completeSysex u = endSysexMessage (drop .sysexOverflow u) ∧
      completeSysex u' = endSysexMessage (drop .sysexOverflow u')) ∨
    (completeSysex u = endSysexMessage (drop .emptySysex u) ∧
      completeSysex u' = endSysexMessage (drop .emptySysex u')) ∨
    (u.S.count ≠ 0 ∧ completeSysex u = endSysexMessage (emitEvent (extendedEvent u.S) u) ∧
      completeSysex u' = endSysexMessage (emitEvent (extendedEvent u'.S) u')) := by
  unfold completeSysex
  rw [hovf, hcount]
  split_ifs with h h0
  · exact .inl ⟨rfl, rfl⟩
  · exact .inr (.inl ⟨rfl, rfl⟩)
  · exact .inr (.inr ⟨h0, rfl, rfl⟩)

/-! ### What no decision reads: the registry beyond one slot, the counter, the outputs and the inputs -/

/-- `s` with another registry, another drop counter, other outputs of the step before and other inputs. -/
def withOutside (T : Vector (Option HandlerId) 256) (dc : BitVec 16) (o : Outputs) (inbox : List HostInput)
    (s : State) : State :=
  { s with T := T, DC := dc, out := o, inbox := inbox }

theorem renameEvent_id (e : Event) : renameEvent id e = e := by
  cases e <;> rfl

theorem renameEvent_callEvent (f : HandlerId → HandlerId) (o : Option HandlerId) (k : Byte) (ch : Nibble)
    (v : Value14) : renameEvent f (callEvent o k ch v) = callEvent (o.map f) k ch v := by
  cases o <;> rfl

section
variable (T : Vector (Option HandlerId) 256) (dc : BitVec 16) (o : Outputs) (inbox : List HostInput)

@[simp] theorem withOutside_P (s : State) : (withOutside T dc o inbox s).P = s.P := rfl

/-- A command byte is classified in states that differ in the same way, and with no event (R80, R88). -/
theorem classified_withOutside (f : HandlerId → HandlerId) (s : State) :
    classified (withOutside T dc o inbox s) =
      { classified s with
        T := T, DC := (classified (withOutside T dc o inbox s)).DC, inbox := inbox
        out := { (classified s).out with event := renameEvent f (classified s).out.event } } := by
  unfold classified
  rw [withOutside_P]
  split <;> rfl

/-- The slot of the class in progress holds in `T` the handler that it holds in `s`, renamed by `f`. -/
def SlotRenamed (f : HandlerId → HandlerId) (T : Vector (Option HandlerId) 256) (s : State) : Prop :=
  ∀ k, mode s.P = .fixed → s.P.active = some k → T[k.toNat]'k.isLt = (slot s k).map f

/-- A change that is no ATTACH and no DETACH is the same from states that differ in what no decision reads, with the
handler of the event renamed. -/
theorem Meaning.apply_withOutside {i : Instr} {c : Commands} {m : Mode} {F : State → State} (hF : Meaning i c m F)
    (hattach : ∀ key h, i ≠ .attach key h) (hdetach : ∀ key, i ≠ .detach key) {f : HandlerId → HandlerId} {s : State}
    (hm : mode s.P = m) (hslot : SlotRenamed f T s) :
    F (withOutside T dc o inbox s) =
      { F s with
        T := T, DC := (F (withOutside T dc o inbox s)).DC, inbox := inbox
        out := { (F s).out with
          event := renameEvent f (F s).out.event, result := (F (withOutside T dc o inbox s)).out.result } } := by
  have hclassified := classified_withOutside T dc o inbox f s
  cases hF with
  | fixedData d =>
    obtain ⟨k, hk, -⟩ := (mode_eq_fixed_iff s.P).1 hm
    beta_reduce
    by_cases hlast : s.P.pending = 1
    · have hhandler : slot (beginStep (withOutside T dc o inbox s)) k = (slot s k).map f := hslot k hm hk
      rw [fixedData_last d (s := beginStep s) hk hlast rfl,
        fixedData_last d (s := beginStep (withOutside T dc o inbox s)) hk hlast rfl, hhandler, ← renameEvent_callEvent]
      rfl
    · rw [fixedData_of_not_last (s := beginStep s) d hlast,
        fixedData_of_not_last (s := beginStep (withOutside T dc o inbox s)) d hlast]
      rfl
  | sysexData d =>
    beta_reduce
    rcases sysexData_alike d (u := beginStep s) (u' := beginStep (withOutside T dc o inbox s)) rfl rfl with
      ⟨hu, hu'⟩ | ⟨hu, hu'⟩ <;> rw [hu, hu'] <;> rfl
  | completeSysex =>
    beta_reduce
    rcases completeSysex_alike (u := beginStep s) (u' := beginStep (withOutside T dc o inbox s)) rfl rfl with
      ⟨hu, hu'⟩ | ⟨hu, hu'⟩ | ⟨-, hu, hu'⟩ <;> rw [hu, hu'] <;> rfl
  | start2 | start1 | wireReset | announce | beginSysex | unrecognized =>
    beta_reduce
    rw [hclassified]
    rfl
  | attach key h hi => exact absurd hi (hattach key h)
  | detach key hi => exact absurd hi (hdetach key)
  | emitTx | encVersion | readDiag => rfl

/-- No change but READ_DIAG's returns a value (R47, R140). -/
theorem Meaning.result_eq_none {i : Instr} {c : Commands} {m : Mode} {F : State → State} (hF : Meaning i c m F)
    (hi : i ≠ .readDiag) (s : State) : (F s).out.result = none := by
  cases hF with
  | fixedData d =>
    obtain ⟨_, _, h⟩ := fixedData_writes d (beginStep s)
    exact congrArg (·.out.result) h
  | sysexData d => exact congrArg (·.result) (sysexData_out d (beginStep s))
  | completeSysex => exact (completeSysex_outputs (beginStep s)).2.1
  | start2 | start1 | wireReset | announce | beginSysex | unrecognized => exact classified_result s
  | readDiag h => exact absurd h hi
  | attach | detach | emitTx | encVersion => rfl

/-- READ_DIAG returns the counter, and no other instruction returns a value (R47, R140). -/
theorem exec_result {i : Instr} {s t : State} (h : exec i s = .next t) :
    t.out.result = if i = .readDiag then some s.DC else none := by
  split_ifs with hi
  · subst hi
    obtain rfl := Host.Outcome.next.inj h
    rfl
  · obtain ⟨F, hF, hexec⟩ := exec_meaning i s.cfg.cmds (mode s.P)
    obtain rfl := Host.Outcome.next.inj ((hexec s rfl rfl).symm.trans h)
    exact hF.result_eq_none hi s

/-- An instruction that is no ATTACH and no DETACH, from states that differ in what no decision reads. -/
theorem exec_withOutside {i : Instr} {s t : State} (h : exec i s = .next t) (hattach : ∀ key h, i ≠ .attach key h)
    (hdetach : ∀ key, i ≠ .detach key) {f : HandlerId → HandlerId} (hslot : SlotRenamed f T s) :
    exec i (withOutside T dc o inbox s) = .next
      { t with
        T := T, DC := dc + BitVec.ofNat 16 t.out.diag.length, inbox := inbox
        out := { t.out with
          event := renameEvent f t.out.event, result := if i = .readDiag then some dc else none } } := by
  obtain ⟨F, hF, hexec⟩ := exec_meaning i s.cfg.cmds (mode s.P)
  obtain rfl := Host.Outcome.next.inj ((hexec s rfl rfl).symm.trans h)
  have hexec' := hexec (withOutside T dc o inbox s) rfl rfl
  have heq := hF.apply_withOutside T dc o inbox hattach hdetach rfl hslot
  have hresult := exec_result hexec'
  have hDC := (effect_exec hexec').DC_eq
  rw [hexec']
  refine congrArg Host.Outcome.next (heq.trans ?_)
  rw [hresult, hDC, heq]
  rfl

/-- The same with every handler left as it is: the slot of the class in progress holds in `T` what it holds in `s`. -/
theorem exec_withOutside_of_slot_eq {i : Instr} {s t : State} (h : exec i s = .next t)
    (hattach : ∀ key h, i ≠ .attach key h) (hdetach : ∀ key, i ≠ .detach key)
    (hslot : ∀ k, mode s.P = .fixed → s.P.active = some k → T[k.toNat]'k.isLt = slot s k) :
    exec i (withOutside T dc o inbox s) = .next
      { t with
        T := T, DC := dc + BitVec.ofNat 16 t.out.diag.length, inbox := inbox
        out := { t.out with result := if i = .readDiag then some dc else none } } := by
  have hrenamed : SlotRenamed id T s := fun k hm hk => by rw [hslot k hm hk, Option.map_id]; rfl
  rw [exec_withOutside T dc o inbox h hattach hdetach hrenamed, renameEvent_id]

end

/-- What an instruction that is no ATTACH and no DETACH makes of the fields that no decision reads. -/
theorem exec_outside {i : Instr} {s t : State} (h : exec i s = .next t) (hattach : ∀ key h, i ≠ .attach key h)
    (hdetach : ∀ key, i ≠ .detach key) :
    t.T = s.T ∧ t.DC = s.DC + BitVec.ofNat 16 t.out.diag.length ∧ t.inbox = s.inbox := by
  have hself := exec_withOutside_of_slot_eq s.T s.DC s.out s.inbox h hattach hdetach fun _ _ _ => rfl
  have heq := Host.Outcome.next.inj (h.symm.trans hself)
  exact ⟨congrArg (·.T) heq, congrArg (·.DC) heq, congrArg (·.inbox) heq⟩

/-- An instruction is no ATTACH and no DETACH, or it is a write of one slot, whose handler can be renamed. -/
theorem registryWrite_cases (i : Instr) :
    ((∀ key h, i ≠ .attach key h) ∧ ∀ key, i ≠ .detach key) ∨
    ∃ key h, (∀ s, exec i s = .next (setSlot key h (beginStep s))) ∧
      ∀ f s, exec (renameInstr f i) s = .next (setSlot key (h.map f) (beginStep s)) := by
  cases i with
  | attach key h => exact .inr ⟨key, some h, fun _ => rfl, fun _ _ => rfl⟩
  | detach key => exact .inr ⟨key, none, fun _ => rfl, fun _ _ => rfl⟩
  | _ => exact .inl ⟨nofun, nofun⟩

/-! ### The inputs (R30, R50) -/

/-- No instruction touches the inputs, and none depends on them. -/
theorem exec_withInbox {i : Instr} {s t : State} (h : exec i s = .next t) (inbox : List HostInput) :
    exec i { s with inbox := inbox } = .next { t with inbox := inbox } ∧ t.inbox = s.inbox := by
  rcases registryWrite_cases i with ⟨hattach, hdetach⟩ | ⟨key, o, hset, -⟩
  · obtain ⟨hT, hDC, hinbox⟩ := exec_outside h hattach hdetach
    have hresult := exec_result h
    have hother := exec_withOutside_of_slot_eq s.T s.DC s.out inbox h hattach hdetach fun _ _ _ => rfl
    exact ⟨hother.trans (by rw [← hT, ← hDC, ← hresult]), hinbox⟩
  · obtain rfl := Host.Outcome.next.inj ((hset s).symm.trans h)
    exact ⟨hset _, rfl⟩

/-- A step that finds the encoding of an instruction runs the instruction, and leaves the inputs behind it (R30). -/
theorem step_encoded {i : Instr} {s t : State} (hc : s.cfg.cmds.Conforming) (h : exec i s = .next t)
    (rest : List HostInput) :
    step { s with inbox := .word (encode s.cfg.cmds i) :: rest } = .next { t with inbox := rest } := by
  rw [step_of_decode_ok (s := { s with inbox := .word (encode s.cfg.cmds i) :: rest }) rfl
    (decodeEncode s.cfg.cmds i hc)]
  exact (exec_withInbox h rest).1

/-- A run goes on from where its first step leads. -/
theorem core_run_succ {s t : State} (h : step s = .next t) (n : Nat) :
    Sys2Proof.core.run (n + 1) s = Sys2Proof.core.run n t := by
  have hcore : Sys2Proof.core.step s = .next t := h
  simp only [Host.Core.run, hcore]

/-- Each step takes the first word, runs its instruction and leaves the words behind it: by induction on the operations,
whose encodings stay the same because no instruction writes the parameters. -/
theorem core_run_encoded {c : Commands} (hc : c.Conforming) (rest : List HostInput) {is : List Instr} {s t : State}
    {os : List Outputs} (hs : s.cfg.cmds = c) (hrun : runOps is s = some (t, os)) :
    Sys2Proof.core.run is.length { s with inbox := is.map (fun i => .word (encode c i)) ++ rest } =
      .next { t with inbox := rest } ∧ t.inbox = s.inbox := by
  induction is generalizing s os with
  | nil =>
    obtain ⟨rfl, rfl⟩ : s = t ∧ [] = os := by simpa using hrun
    exact ⟨rfl, rfl⟩
  | cons i is ih =>
    obtain ⟨u, hexec⟩ := exec_completes i s
    rw [runOps_cons hexec] at hrun
    obtain ⟨⟨_, ps⟩, hrest, heq⟩ := Option.map_eq_some_iff.1 hrun
    obtain ⟨rfl, rfl⟩ := Prod.mk.inj heq
    have hu : u.cfg.cmds = c := by rw [(effect_exec hexec).cfg_eq, hs]
    obtain ⟨hsteps, hinbox⟩ := ih hu hrest
    have hstep := step_encoded (hs ▸ hc) hexec (is.map (fun i => .word (encode c i)) ++ rest)
    rw [hs] at hstep
    exact ⟨(core_run_succ hstep is.length).trans hsteps, hinbox.trans (exec_withInbox hexec []).2⟩

/-- Settles O14: the operations run from the queue of their encodings as they run one after another. -/
theorem stepsRunInIssueOrder : Obligations.StepsRunInIssueOrder := by
  unfold Obligations.StepsRunInIssueOrder
  exact fun is s t os rest hc hrun => core_run_encoded hc rest rfl hrun

/-! ### The registry and the handlers (R123, R126) -/

/-- ATTACH and DETACH write one slot, whatever the other slots hold. -/
theorem slot_setSlot_congr {key : Byte} {h : Option HandlerId} {s s' : State} {k : Byte} (hk : slot s' k = slot s k) :
    slot (setSlot key h s') k = slot (setSlot key h s) k := by
  rw [slot_setSlot, slot_setSlot, hk]

/-- Settles O41: ATTACH and DETACH write one slot of either registry; every other instruction reads at most the slot of
the class in progress, which is one of the five. -/
theorem onlyDispatchedSlotsMatter : Obligations.OnlyDispatchedSlotsMatter := by
  unfold Obligations.OnlyDispatchedSlotsMatter
  intro s t T' i hinv hslots hexec
  rcases registryWrite_cases i with ⟨hattach, hdetach⟩ | ⟨key, o, hset, -⟩
  · obtain ⟨hT, hDC, hinbox⟩ := exec_outside hexec hattach hdetach
    have hresult := exec_result hexec
    have hother := exec_withOutside_of_slot_eq T' s.DC s.out s.inbox hexec hattach hdetach fun k hm hk => by
      obtain ⟨j, hj, hne⟩ := (mode_eq_fixed_iff s.P).1 hm
      obtain rfl : j = k := Option.some.inj (hj.symm.trans hk)
      exact hslots j ((hinv.activeLegal j hj).resolve_right hne)
    refine ⟨_, hother, by rw [← hDC, ← hresult, ← hinbox], fun k hk => ?_⟩
    exact (hslots k hk).trans (slot_congr hT.symm k)
  · obtain rfl := Host.Outcome.next.inj ((hset s).symm.trans hexec)
    exact ⟨_, hset _, rfl, fun k hk => slot_setSlot_congr (hslots k hk)⟩

/-- A write of a slot and a renaming of the handlers can change places. -/
theorem setSlot_renameState (f : HandlerId → HandlerId) (key : Byte) (h : Option HandlerId) (s : State) :
    setSlot key (h.map f) (beginStep (renameState f s)) = renameState f (setSlot key h (beginStep s)) := by
  simp [setSlot, beginStep, renameState, Vector.map_set, Outputs.nothing, renameEvent]

/-- Settles O42: ATTACH stores the handler it is given, DETACH none, and every other instruction copies at most the
handler of one slot into the event. -/
theorem handlersAreOpaque : Obligations.HandlersAreOpaque := by
  unfold Obligations.HandlersAreOpaque
  intro f s t i hexec
  rcases registryWrite_cases i with ⟨hattach, hdetach⟩ | ⟨key, o, hset, hrename⟩
  · obtain ⟨hT, hDC, hinbox⟩ := exec_outside hexec hattach hdetach
    have hresult := exec_result hexec
    have hself : renameInstr f i = i := by
      cases i with
      | attach key h => exact absurd rfl (hattach key h)
      | _ => rfl
    have hother := exec_withOutside (s.T.map (Option.map f)) s.DC { s.out with event := renameEvent f s.out.event }
      s.inbox hexec hattach hdetach (f := f) fun k _ _ => by rw [Vector.getElem_map]; rfl
    rw [hself]
    exact hother.trans (by rw [← hT, ← hDC, ← hresult, ← hinbox]; rfl)
  · obtain rfl := Host.Outcome.next.inj ((hset s).symm.trans hexec)
    rw [hrename, setSlot_renameState]

/-! ### The counter and the outputs of the step before (R144) -/

/-- Settles O51: both states record the same causes, by which the counter grows; READ_DIAG alone returns it. -/
theorem diagnosticsNeverFeedBack : Obligations.DiagnosticsNeverFeedBack := by
  unfold Obligations.DiagnosticsNeverFeedBack
  intro s t i dc o hexec
  rcases registryWrite_cases i with ⟨hattach, hdetach⟩ | ⟨_, _, hset, -⟩
  · obtain ⟨hT, hDC, hinbox⟩ := exec_outside hexec hattach hdetach
    have hresult := exec_result hexec
    have hother := exec_withOutside_of_slot_eq s.T dc o s.inbox hexec hattach hdetach fun _ _ _ => rfl
    refine ⟨_, hother, by rw [← hT, ← hinbox], ?_, ?_⟩
    · rw [hDC]
      simp
    · by_cases hi : i = .readDiag
      · exact .inr hi
      · rw [hresult]
        simp [hi]
  · obtain rfl := Host.Outcome.next.inj ((hset s).symm.trans hexec)
    exact ⟨_, hset _, rfl, by simp, .inl rfl⟩

end Sys2Proof.Machine

/-! PROOFS. Runs: refusals at the port, what is left from an earlier message, and whole messages fed byte by byte. -/

namespace Sys2Proof.Machine

/-! ### Refusals (R152) -/

/-- Settles O13: a power-on reset and an instruction complete, so a step is refused only at an empty port or for a word
that does not decode, which is one that is not well-formed. -/
theorem refusedOnlyWithoutOperation : Obligations.RefusedOnlyWithoutOperation := by
  unfold Obligations.RefusedOnlyWithoutOperation
  intro s r hc
  constructor
  · intro h
    cases hinbox : s.inbox with
    | nil =>
      simp only [step, fetch, hinbox] at h
      exact .inl ⟨rfl, (Host.Outcome.refused.inj h).symm⟩
    | cons input rest =>
      cases input with
      | powerOn =>
        rw [step_powerOn hinbox] at h
        cases h
      | word w =>
        cases hdecode : decode s.cfg.cmds w with
        | ok i =>
          obtain ⟨t, hexec⟩ := exec_completes i { s with inbox := rest }
          rw [step_of_decode_ok hinbox hdecode, hexec] at h
          cases h
        | error why =>
          have hnot : ¬ w.wellFormed = true := fun hw => by
            obtain ⟨i, hi⟩ := (decodeAcceptsExactlyWellFormed s.cfg.cmds w hc).2 hw
            rw [hdecode] at hi
            cases hi
          rw [step_of_decode_error hinbox hdecode] at h
          exact .inr ⟨w, rest, why, rfl, Bool.eq_false_of_not_eq_true hnot, hdecode,
            (Host.Outcome.refused.inj h).symm⟩
  · rintro (⟨hinbox, rfl⟩ | ⟨w, rest, why, hinbox, -, hdecode, rfl⟩)
    · simp only [step, fetch, hinbox]
    · exact step_of_decode_error hinbox hdecode

/-! ### What is left from an earlier message (R35) -/

/-- Two states that differ only in what no later step reads: the channel outside FIXED mode, the entries of `P.buf` but
the one that a 2-byte message has stored, and the entries of `S.buf` beyond those counted. -/
structure SameButStale (s s' : State) : Prop where
  cfg : s'.cfg = s.cfg
  pending : s'.P.pending = s.P.pending
  active : s'.P.active = s.P.active
  channel : mode s.P = .fixed → s'.P.channel = s.P.channel
  buf1 : ∀ k ∈ s.cfg.cmds.twoByteClasses, s.P.active = some k → s.P.pending = 1 → s'.P.buf1 = s.P.buf1
  count : s'.S.count = s.S.count
  ovf : s'.S.ovf = s.S.ovf
  bufLength : s'.S.buf.length = s.S.buf.length
  stored : s'.S.buf.take s.S.count = s.S.buf.take s.S.count
  T : s'.T = s.T
  DC : s'.DC = s.DC

theorem SameButStale.mode_eq {s s' : State} (h : SameButStale s s') : mode s'.P = mode s.P := by
  rw [mode, mode, h.active]

/-- What is stale is in the registers `P` and `S` alone. -/
theorem SameButStale.congr {s s' t t' : State} (h : SameButStale s s') (hcfg : t.cfg = s.cfg) (hcfg' : t'.cfg = s'.cfg)
    (hP : t.P = s.P) (hP' : t'.P = s'.P) (hS : t.S = s.S) (hS' : t'.S = s'.S) (hT : t'.T = t.T) (hDC : t'.DC = t.DC) :
    SameButStale t t' := by
  obtain ⟨hc, hpending, hactive, hchannel, hbuf1, hcount, hovf, hlen, hstored, -, -⟩ := h
  refine ⟨?_, ?_, ?_, ?_, ?_, ?_, ?_, ?_, ?_, hT, hDC⟩ <;> simp only [hcfg, hcfg', hP, hP', hS, hS'] <;> assumption

/-- The outputs of the step before are read by none. -/
theorem SameButStale.beginStep {s s' : State} (h : SameButStale s s') : SameButStale (beginStep s) (beginStep s') :=
  h.congr rfl rfl rfl rfl rfl rfl h.T h.DC

/-- Nothing is stale in a state that has no message in progress but what it has counted. -/
theorem sameButStale_of_idle {t t' : State} (hcfg : t'.cfg = t.cfg) (hpending : t'.P.pending = t.P.pending)
    (hidle : t.P.active = none) (hidle' : t'.P.active = none) (hcount : t'.S.count = t.S.count)
    (hovf : t'.S.ovf = t.S.ovf) (hlen : t'.S.buf.length = t.S.buf.length)
    (hstored : t'.S.buf.take t.S.count = t.S.buf.take t.S.count) (hT : t'.T = t.T) (hDC : t'.DC = t.DC) :
    SameButStale t t' where
  cfg := hcfg
  pending := hpending
  active := hidle'.trans hidle.symm
  channel := fun hm => by simp [(mode_eq_idle_iff t.P).2 hidle] at hm
  buf1 := fun k _ hk => by simp [hidle] at hk
  count := hcount
  ovf := hovf
  bufLength := hlen
  stored := hstored
  T := hT
  DC := hDC

/-- A command byte leaves nothing in progress, and puts out the same (R80, R88). -/
theorem SameButStale.classified {s s' : State} (h : SameButStale s s') :
    SameButStale (classified s) (classified s') ∧ (Machine.classified s').out = (Machine.classified s).out := by
  unfold Machine.classified
  rw [h.mode_eq]
  split
  · exact ⟨h.beginStep, rfl⟩
  · have hDC : s'.DC + 1 = s.DC + 1 := congrArg (· + 1) h.DC
    exact ⟨sameButStale_of_idle h.cfg rfl rfl rfl rfl rfl h.bufLength rfl h.T hDC, rfl⟩

/-- The bytes stored make up the event of a complete extended message (R99). -/
theorem extendedEvent_congr {x x' : Sysex} (hcount : x'.count = x.count) (h0 : x.count ≠ 0)
    (hstored : x'.buf.take x.count = x.buf.take x.count) : extendedEvent x' = extendedEvent x := by
  have hfirst : ∀ b : List Data7, b.getD 0 0 = (b.take x.count).getD 0 0 := fun b => by
    rw [List.getD_eq_getElem?_getD, List.getD_eq_getElem?_getD, List.getElem?_take_of_lt (Nat.pos_of_ne_zero h0)]
  rw [extendedEvent, extendedEvent, hcount, hstored, hfirst, hstored, ← hfirst]

/-- Both states hold the data byte behind what they have stored (R98). -/
theorem take_set_congr {b b' : List Data7} {n : Nat} (d : Data7) (hlen : b'.length = b.length)
    (h : b'.take n = b.take n) : (b'.set n d).take (n + 1) = (b.set n d).take (n + 1) := by
  rw [List.take_add_one, List.take_add_one, List.take_set_of_le le_rfl, List.take_set_of_le le_rfl, h]
  simp only [List.getElem?_set, hlen, if_true]

/-- The value of a completed message is that of the entries that its class has stored (R86, R87). -/
theorem payloadValue_congr {c : Commands} {k : Byte} {p p' : Parser} (h0 : p'.buf0 = p.buf0)
    (h1 : k ∈ c.twoByteClasses → p'.buf1 = p.buf1) : payloadValue c k p' = payloadValue c k p := by
  unfold payloadValue
  split
  next htwo => rw [h0, h1 htwo]
  next => rw [h0]

/-- A data byte that is not the last one is stored as the second entry, or is none that a message has to come. -/
theorem storeFixed_cases {s : State} (d : Data7) (hlast : s.P.pending ≠ 1) :
    (s.P.pending = 2 ∧ storeFixed d s = { s with P := { s.P with pending := 1, buf1 := d } }) ∨
    (s.P.pending ≠ 2 ∧ s.P.pending - 1 ≠ 1 ∧
      storeFixed d s = { s with P := { s.P with pending := s.P.pending - 1 } }) := by
  obtain hp | hp | hp : s.P.pending = 0 ∨ s.P.pending = 2 ∨ s.P.pending = 3 := by
    revert hlast
    generalize s.P.pending = n
    revert n
    decide
  · exact .inr (by simp [storeFixed, storeBuf, hp])
  · exact .inl (by simp [storeFixed, storeBuf, hp])
  · exact .inr (by simp [storeFixed, storeBuf, hp])

/-- A change keeps two states the same but for what is stale, and puts out the same from both. -/
theorem Meaning.keeps_sameButStale {i : Instr} {c : Commands} {m : Mode} {F : State → State} (hF : Meaning i c m F)
    (hc : c.Conforming) {s s' : State} (hs : s.cfg.cmds = c) (hm : mode s.P = m) (h : SameButStale s s') :
    SameButStale (F s) (F s') ∧ (F s').out = (F s).out := by
  obtain ⟨hcl, hout⟩ := h.classified
  have hidle := mode_classified s
  have hb := h.beginStep
  cases hF with
  | fixedData d =>
    obtain ⟨k, hk, hne⟩ := (mode_eq_fixed_iff s.P).1 hm
    beta_reduce
    by_cases hlast : s.P.pending = 1
    · rw [fixedData_last d (s := beginStep s) hk hlast rfl,
        fixedData_last d (s := beginStep s') (h.active.trans hk) (h.pending.trans hlast) rfl]
      refine ⟨sameButStale_of_idle h.cfg rfl rfl rfl h.count h.ovf h.bufLength h.stored h.T h.DC, ?_⟩
      have hvalue : payloadValue s'.cfg.cmds k { s'.P with buf0 := d } =
          payloadValue s.cfg.cmds k { s.P with buf0 := d } := by
        rw [h.cfg]
        exact payloadValue_congr rfl fun htwo => h.buf1 k htwo hk hlast
      have hevent : callEvent (slot s' k) k s'.P.channel (payloadValue s'.cfg.cmds k { s'.P with buf0 := d }) =
          callEvent (slot s k) k s.P.channel (payloadValue s.cfg.cmds k { s.P with buf0 := d }) := by
        rw [hvalue, slot_congr h.T, h.channel hm]
      exact congrArg (fun e => { Outputs.nothing with event := e }) hevent
    · have hlast' : s'.P.pending ≠ 1 := h.pending ▸ hlast
      rw [fixedData_of_not_last (s := beginStep s) d hlast, fixedData_of_not_last (s := beginStep s') d hlast']
      refine ⟨?_, rfl⟩
      rcases storeFixed_cases (s := beginStep s) d hlast with ⟨htwo, hu⟩ | ⟨htwo, hnot, hu⟩ <;>
        rcases storeFixed_cases (s := beginStep s') d hlast' with ⟨htwo', hu'⟩ | ⟨htwo', -, hu'⟩
      · rw [hu, hu']
        exact ⟨h.cfg, rfl, h.active, h.channel, fun _ _ _ _ => rfl, h.count, h.ovf, h.bufLength, h.stored, h.T, h.DC⟩
      · exact absurd (h.pending.trans htwo) htwo'
      · exact absurd (h.pending.symm.trans htwo') htwo
      · rw [hu, hu']
        exact ⟨h.cfg, congrArg (· - 1) h.pending, h.active, h.channel, fun _ _ _ hone => absurd hone hnot, h.count,
          h.ovf, h.bufLength, h.stored, h.T, h.DC⟩
  | sysexData d =>
    beta_reduce
    rcases sysexData_alike d hb.cfg hb.count with ⟨hu, hu'⟩ | ⟨hu, hu'⟩ <;> rw [hu, hu']
    · refine ⟨⟨h.cfg, h.pending, h.active, h.channel, h.buf1, rfl, h.ovf, ?_, take_set_congr d h.bufLength h.stored,
        h.T, h.DC⟩, rfl⟩
      simpa using h.bufLength
    · exact ⟨⟨h.cfg, h.pending, h.active, h.channel, h.buf1, h.count, rfl, h.bufLength, h.stored, h.T, h.DC⟩, rfl⟩
  | completeSysex =>
    beta_reduce
    rcases completeSysex_alike hb.ovf hb.count with ⟨hu, hu'⟩ | ⟨hu, hu'⟩ | ⟨h0, hu, hu'⟩ <;> rw [hu, hu']
    · exact ⟨sameButStale_of_idle h.cfg h.pending rfl rfl rfl rfl h.bufLength rfl h.T (congrArg (· + 1) h.DC), rfl⟩
    · exact ⟨sameButStale_of_idle h.cfg h.pending rfl rfl rfl rfl h.bufLength rfl h.T (congrArg (· + 1) h.DC), rfl⟩
    · refine ⟨sameButStale_of_idle h.cfg h.pending rfl rfl rfl rfl h.bufLength rfl h.T h.DC, ?_⟩
      rw [extendedEvent_congr hb.count h0 hb.stored]
      rfl
  | start2 cls hcls ch =>
    have hnot : ¬ (2 : BitVec 2) = 1 := by decide
    exact ⟨⟨hcl.cfg, rfl, rfl, fun _ => rfl, fun _ _ _ hone => absurd hone hnot, hcl.count, hcl.ovf, hcl.bufLength,
      hcl.stored, hcl.T, hcl.DC⟩, hout⟩
  | start1 cls hcls ch =>
    refine ⟨⟨hcl.cfg, rfl, rfl, fun _ => rfl, ?_, hcl.count, hcl.ovf, hcl.bufLength, hcl.stored, hcl.T, hcl.DC⟩, hout⟩
    rintro k htwo ⟨⟩
    rw [start_cfg, classified_cfg, hs] at htwo
    exact absurd htwo (not_mem_twoByteClasses_of_mem_oneByteClasses hc hcls)
  | wireReset =>
    have hS : (Sysex.init (classified s').cfg).buf = (Sysex.init (classified s).cfg).buf := by rw [hcl.cfg]
    exact ⟨sameButStale_of_idle hcl.cfg rfl rfl rfl rfl rfl (congrArg List.length hS) rfl hcl.T hcl.DC, hout⟩
  | announce =>
    refine ⟨hcl.congr rfl rfl rfl rfl rfl rfl hcl.T hcl.DC, ?_⟩
    rw [announce_out, announce_out, hout, hcl.cfg]
  | beginSysex =>
    refine ⟨⟨hcl.cfg, hcl.pending, rfl, nofun, ?_, rfl, rfl, hcl.bufLength, rfl, hcl.T, hcl.DC⟩, hout⟩
    rintro k htwo ⟨⟩
    rw [beginSysex_cfg, classified_cfg, hs] at htwo
    exact absurd rfl (ne_startSysex_of_mem_fixedClasses hc (List.mem_append_left _ htwo))
  | unrecognized =>
    refine ⟨hcl.congr rfl rfl rfl rfl rfl rfl hcl.T (congrArg (· + 1) hcl.DC), ?_⟩
    rw [drop_out, drop_out, hout]
  | attach key o _ => exact ⟨h.congr rfl rfl rfl rfl rfl rfl (by rw [setSlot_T, setSlot_T, hb.T]) h.DC, rfl⟩
  | detach key _ => exact ⟨h.congr rfl rfl rfl rfl rfl rfl (by rw [setSlot_T, setSlot_T, hb.T]) h.DC, rfl⟩
  | emitTx bytes => exact ⟨h.congr rfl rfl rfl rfl rfl rfl h.T h.DC, rfl⟩
  | encVersion =>
    refine ⟨h.congr rfl rfl rfl rfl rfl rfl h.T h.DC, ?_⟩
    rw [announce_out, announce_out, hb.cfg]
    rfl
  | readDiag _ =>
    refine ⟨h.congr rfl rfl rfl rfl rfl rfl h.T h.DC, ?_⟩
    rw [emitResult_out, emitResult_out, h.DC]
    rfl

/-- Every run puts out the same from two states that differ only in what is stale: by induction on its operations. -/
theorem runOps_sameButStale {c : Commands} (hc : c.Conforming) (is : List Instr) {s s' : State} (hs : s.cfg.cmds = c)
    (h : SameButStale s s') : (runOps is s').map (·.2) = (runOps is s).map (·.2) := by
  induction is generalizing s s' with
  | nil => rfl
  | cons i is ih =>
    obtain ⟨F, hF, hexec⟩ := exec_meaning i c (mode s.P)
    have hnext := hexec s hs rfl
    obtain ⟨hkeep, hout⟩ := hF.keeps_sameButStale hc hs rfl h
    have hcfg : (F s).cfg.cmds = c := by rw [(effect_exec hnext).cfg_eq, hs]
    rw [runOps_cons hnext, runOps_cons (hexec s' (by rw [h.cfg, hs]) h.mode_eq), Option.map_map, Option.map_map, hout]
    have hrest := congrArg (Option.map ((F s).out :: ·)) (ih hcfg hkeep)
    rwa [Option.map_map, Option.map_map] at hrest

/-- Settles O53: an idle decoder that meets the invariant has counted nothing, so the channel and all of both buffers
are stale. -/
theorem staleBuffersNeverRead : Obligations.StaleBuffersNeverRead := by
  unfold Obligations.StaleBuffersNeverRead
  intro s ch b0 b1 buf is hinv hm hlen
  have hactive := (mode_eq_idle_iff s.P).1 hm
  obtain ⟨hcount, -⟩ := hinv.sysexClear (by simp [hm])
  refine (runOps_sameButStale hinv.cfgLegal.2 is rfl ?_).symm
  exact sameButStale_of_idle rfl rfl hactive hactive rfl rfl hlen (by simp [hcount]) rfl rfl

end Sys2Proof.Machine

/-! PROOFS. Whole messages, fed byte by byte: extended messages that fit the buffer or do not, and the round trips of
the encoder's bytes (R135). -/

namespace Sys2Proof.Machine

/-! ### The data bytes of an extended message (R98) -/

/-- What a data byte makes of the sysex registers, with a buffer of `cap` entries (R98). -/
def storeSysex (cap : Nat) (x : Sysex) (d : Data7) : Sysex :=
  if x.count < cap then { x with buf := x.buf.set x.count d, count := x.count + 1 } else { x with ovf := true }

theorem sysexData_eq_storeSysex (d : Data7) (s : State) :
    sysexData d s = { s with S := storeSysex s.cfg.sysexCap s.S d } := by
  rcases sysexData_cases d s with ⟨hroom, h⟩ | ⟨hfull, h⟩
  · rw [h, storeSysex, if_pos hroom]
  · rw [h, storeSysex, if_neg hfull]

/-- More data bytes than there is room for set the overflow. -/
theorem foldl_storeSysex_of_gt {cap : Nat} (ds : List Data7) {x : Sysex} (hcount : x.count ≤ cap)
    (h : x.ovf = true ∨ cap < x.count + ds.length) : (ds.foldl (storeSysex cap) x).ovf = true := by
  induction ds generalizing x with
  | nil => exact h.resolve_right (Nat.not_lt.2 hcount)
  | cons d ds ih =>
    rw [List.foldl_cons, storeSysex]
    split
    next hroom =>
      refine ih hroom (h.imp_right fun hgt => ?_)
      rw [List.length_cons] at hgt
      dsimp only
      omega
    next => exact ih hcount (.inl rfl)

/-- Data bytes that there is room for are stored in wire order, and set no overflow. -/
theorem foldl_storeSysex_of_le {cap : Nat} (ds : List Data7) {x : Sysex} (hlen : x.buf.length = cap)
    (h : x.count + ds.length ≤ cap) :
    (ds.foldl (storeSysex cap) x).ovf = x.ovf ∧ (ds.foldl (storeSysex cap) x).count = x.count + ds.length ∧
    (ds.foldl (storeSysex cap) x).buf.take (x.count + ds.length) = x.buf.take x.count ++ ds := by
  induction ds generalizing x with
  | nil => simp
  | cons d ds ih =>
    rw [List.length_cons] at h
    have hroom : x.count < cap := by omega
    have htake : (x.buf.set x.count d).take (x.count + 1) = x.buf.take x.count ++ [d] := by
      rw [List.take_add_one, List.take_set_of_le le_rfl, List.getElem?_set_self (hlen ▸ hroom)]
      rfl
    rw [List.foldl_cons, storeSysex, if_pos hroom]
    obtain ⟨hovf, hcount, hstored⟩ := ih (x := { x with buf := x.buf.set x.count d, count := x.count + 1 })
      (by simpa using hlen) (by dsimp only; omega)
    have hnext : x.count + (d :: ds).length = x.count + 1 + ds.length := by rw [List.length_cons]; omega
    rw [hnext]
    refine ⟨hovf, hcount, hstored.trans ?_⟩
    rw [htake, List.append_assoc]
    rfl

/-! ### Extended messages as runs (R97 to R99) -/

/-- The data bytes of an extended message put nothing out, and leave the decoder in SYSEX mode. -/
theorem runOps_sysexData (ds : List Data7) {s : State} (hm : mode s.P = .sysex) :
    ∃ t, runOps (ds.map Instr.data) s = some (t, List.replicate ds.length Outputs.nothing) ∧ t.P = s.P ∧
      t.S = ds.foldl (storeSysex s.cfg.sysexCap) s.S := by
  induction ds generalizing s with
  | nil => exact ⟨s, rfl, rfl, rfl⟩
  | cons d ds ih =>
    have hexec : exec (.data d) s = .next { beginStep s with S := storeSysex s.cfg.sysexCap s.S d } := by
      rw [exec_data, execData, hm]
      exact congrArg Host.Outcome.next (sysexData_eq_storeSysex d (beginStep s))
    obtain ⟨t, hrun, hP, hS⟩ := ih (s := { beginStep s with S := storeSysex s.cfg.sysexCap s.S d }) hm
    exact ⟨t, by rw [List.map_cons, runOps_cons hexec, hrun]; rfl, hP, hS⟩

/-- An extended message, from START_SYSEX in an idle decoder to END_SYSEX: the last step completes what the data bytes
have left in the sysex registers, and no step before it puts anything out. -/
theorem runOps_sysexMessage (ds : List Data7) {s : State} (hm : mode s.P = .idle) :
    ∃ u t, runOps (.startSysex :: ds.map Instr.data ++ [.endSysex]) s =
        some (t, List.replicate (ds.length + 1) Outputs.nothing ++ [t.out]) ∧
      exec .endSysex u = .next t ∧ mode u.P = .sysex ∧
      u.S = ds.foldl (storeSysex s.cfg.sysexCap) { s.S with count := 0, ovf := false } := by
  have hstart : exec .startSysex s = .next (beginSysex { s with out := Outputs.nothing }) := by
    rw [exec_startSysex, execStartSysex, commandByte_eq, classified_of_idle hm]
  obtain ⟨u, hdata, hP, hS⟩ := runOps_sysexData ds (s := beginSysex { s with out := Outputs.nothing }) rfl
  obtain ⟨t, hend⟩ := exec_completes .endSysex u
  refine ⟨u, t, ?_, hend, by rw [hP]; rfl, hS⟩
  exact runOps_append (runOps_append (runOps_single hstart) hdata) (runOps_single hend)

/-- After steps that put nothing out, the events and causes of a run are those of its last step. -/
theorem eventsOf_causesOf_last (n : Nat) (o : Outputs) :
    eventsOf (List.replicate n Outputs.nothing ++ [o]) = eventsOf [o] ∧
    causesOf (List.replicate n Outputs.nothing ++ [o]) = o.diag := by
  simp [eventsOf, causesOf, Outputs.nothing]

/-- Settles O28: the data bytes set the overflow, and END_SYSEX counts it once. -/
theorem oversizedSysexDroppedOnce : Obligations.OversizedSysexDroppedOnce := by
  unfold Obligations.OversizedSysexDroppedOnce
  intro s ds hm hlen
  obtain ⟨u, t, hrun, hend, hu, hS⟩ := runOps_sysexMessage ds hm
  obtain ⟨hevents, hcauses⟩ := eventsOf_causesOf_last (ds.length + 1) t.out
  have hovf : u.S.ovf = true := by
    rw [hS]
    exact foldl_storeSysex_of_gt ds (Nat.zero_le _) (.inr (by simpa using hlen))
  obtain ⟨t', hend', ht, hoverflow, -, -⟩ := endSysexCompletes u hu
  obtain rfl : t' = t := Host.Outcome.next.inj (hend'.symm.trans hend)
  obtain ⟨-, hout⟩ := hoverflow hovf
  have hDC := runOps_DC hrun
  rw [hcauses, hout] at hDC
  refine ⟨t', _, hrun, ?_, by rw [hcauses, hout], by rw [ht]; rfl, hDC⟩
  rw [hevents, hout]
  rfl

/-! ### Bytes fed to the decoder (R80) -/

/-- Feeding bytes runs the instructions that they decode to, one after another. -/
theorem runOps_feeds_of_decode {c : Commands} (hc : c.Conforming) {bs : List Byte} {is : List Instr} {s : State}
    (hs : s.cfg.cmds = c) (h : bs.map (fun b => decode c (wireWord b)) = is.map .ok) :
    runOps (feeds bs) s = runOps is s := by
  induction bs generalizing is s with
  | nil =>
    obtain rfl : is = [] := by simpa using h.symm
    rfl
  | cons b bs ih =>
    cases is with
    | nil => simp at h
    | cons i is =>
      obtain ⟨hb, hbs⟩ := List.cons.inj h
      have hdecode : decodeWire s.cfg.cmds b = .ok i := by rw [← decode_wireWord, hs]; exact hb
      obtain ⟨t, hexec⟩ := exec_completes i s
      have hfeed : exec (.feed b) s = .next t := by rw [← exec_eq_feed_of_decodeWire (hs ▸ hc) hdecode, hexec]
      have ht : t.cfg.cmds = c := by rw [(effect_exec hexec).cfg_eq, hs]
      rw [feeds, List.map_cons, runOps_cons hfeed, runOps_cons hexec]
      exact congrArg (Option.map _) (ih ht hbs)

/-- Settles O48: the bytes decode to the message, which the buffer holds whole. -/
theorem extendedRoundTrip : Obligations.ExtendedRoundTrip := by
  unfold Obligations.ExtendedRoundTrip
  intro e s cmd payload hc hm hlen hfit
  obtain ⟨_, _, -, -, -, -, -, -, hbytes⟩ := listingsDecodeToTheirMessages s.cfg.cmds 0 0 0 cmd payload hc
  obtain ⟨u, t, hrun, hend, hu, hS⟩ := runOps_sysexMessage (cmd :: payload) hm
  obtain ⟨hevents, hcauses⟩ := eventsOf_causesOf_last ((cmd :: payload).length + 1) t.out
  obtain ⟨hovf, hcount, hstored⟩ := foldl_storeSysex_of_le (cmd :: payload)
    (x := { s.S with count := 0, ovf := false }) hlen (by simpa using hfit)
  rw [← hS] at hovf hcount hstored
  rw [← hcount] at hstored
  obtain ⟨t', hend', ht, -, -, hextended⟩ := endSysexCompletes u hu
  obtain rfl : t' = t := Host.Outcome.next.inj (hend'.symm.trans hend)
  obtain ⟨-, hout⟩ := hextended hovf cmd payload (by simpa using hcount) (by simpa using hstored)
  refine ⟨_, t', _, rfl, (runOps_feeds_of_decode hc rfl ?_).trans hrun, ?_, by rw [hcauses, hout]; rfl, by rw [ht]; rfl⟩
  · refine Eq.trans hbytes ?_
    simp [Function.comp_def]
  · rw [hevents, hout]
    rfl

/-- The bytes of a 2-byte message, fed to an idle decoder, call the handler with the value on the third FEED. -/
theorem runOps_feeds_twoByteMessage {s : State} {i : Instr} {k : Byte} {ch : Nibble} {h : HandlerId} {value : Value14}
    {lo hi : Data7} {bs : List Byte} (hc : s.cfg.cmds.Conforming) (hm : mode s.P = .idle)
    (htwo : k ∈ s.cfg.cmds.twoByteClasses) (hslot : slot s k = some h)
    (hstart : exec i s = .next (start k ch 2 (classified s))) (hvalue : value.toNat = lo.toNat + 128 * hi.toNat)
    (hbytes : bs.map (fun b => decode s.cfg.cmds (wireWord b)) = [.ok i, .ok (.data lo), .ok (.data hi)]) :
    ∃ t, runOps (feeds bs) s = some (t, [Outputs.nothing, Outputs.nothing,
      { Outputs.nothing with event := .call h k ch value }]) ∧ mode t.P = .idle := by
  have hk := ne_startSysex_of_mem_fixedClasses hc (List.mem_append_left _ htwo)
  obtain ⟨v, t, hv, hrun, hidle⟩ := runOps_twoByteMessage hstart hk htwo lo hi
  obtain rfl : v = value := BitVec.eq_of_toNat_eq (hv.trans hvalue.symm)
  rw [classified_of_idle hm, hslot] at hrun
  exact ⟨t, (runOps_feeds_of_decode hc rfl hbytes).trans hrun, hidle⟩

/-- Settles O47: the bytes decode to the message of the encoder's class, with the pin as its channel. -/
theorem valueRoundTrip : Obligations.ValueRoundTrip := by
  unfold Obligations.ValueRoundTrip
  intro e s i key pin value h hcmds hc hencoder hpin hm hslot
  obtain ⟨lo, hi, hvalue, hanalog, hdigital, -⟩ :=
    listingsDecodeToTheirMessages s.cfg.cmds (nibbleOf pin) value 0 0 [] hc
  have hpinNat : (nibbleOf pin).toNat = pin.toNat := by rw [toNat_nibbleOf, Nat.mod_eq_of_lt hpin]
  rcases hencoder with ⟨rfl, rfl⟩ | ⟨rfl, rfl⟩
  · obtain ⟨t, hrun, hidle⟩ := runOps_feeds_twoByteMessage hc hm (analogMessage_mem_twoByteClasses _) hslot
      (exec_analogMessage_eq (nibbleOf pin) s) hvalue hanalog
    exact ⟨_, t, nibbleOf pin, rfl, hpinNat, hrun, hidle⟩
  · have hexec : exec (.digitalMessage (nibbleOf pin)) s =
        .next (start s.cfg.cmds.digitalMessage (nibbleOf pin) 2 (classified s)) := by
      rw [exec_digitalMessage, execDigitalMessage, commandByte_eq]
    obtain ⟨t, hrun, hidle⟩ := runOps_feeds_twoByteMessage hc hm (by simp [Commands.twoByteClasses]) hslot hexec
      hvalue hdigital
    have hencode : exec (.encDigital pin value) e = .next
        (emitTx (channelMessage s.cfg.cmds.digitalMessage (nibbleOf pin) value) (beginStep e)) := by
      rw [exec_encDigital, execEncDigital, hcmds]
    exact ⟨_, t, nibbleOf pin, hencode, hpinNat, hrun, hidle⟩

end Sys2Proof.Machine
